-- ==== Sys2Proof/Word.lean ====
section
/-! DEFINITION. The word types, the numbers that name ports, lines, entries, groups and sweeps, and a
table of fixed length. -/

set_option Elab.async false

namespace Sys2Proof

/-- A byte of a block, a slot, a phrase or an identity record. -/
abbrev Byte := BitVec 8

/-- A 32-bit register, count, stamp or beat. -/
abbrev Word := BitVec 32

/-- A 64-bit host address. -/
abbrev Addr := BitVec 64

/-- Ports 0 to 15 (section 0.7, Names of things). -/
abbrev PortNo := Fin 16

/-- Studio input lines 0 to 7. -/
abbrev LineNo := Fin 8

/-- In-flight entries 0 to 7 (section 8.5). -/
abbrev EntryNo := Fin 8

/-- Groups 0 to 7 (section 9.1). -/
abbrev GroupNo := Fin 8

/-- Sweep Pool records 0 to 3 (section 9.2). -/
abbrev SweepNo := Fin 4

/-- A table of `n` things of one type: a list that carries the proof of its length. -/
structure Table (α : Type) (n : Nat) where
  items : List α
  size : items.length = n
deriving DecidableEq, Repr

namespace Table

variable {α β : Type} {n : Nat}

/-- The thing at a place. -/
def get (t : Table α n) (i : Fin n) : α := t.items.get (i.cast t.size.symm)

/-- The table with the thing at one place replaced. -/
def set (t : Table α n) (i : Fin n) (a : α) : Table α n :=
  ⟨t.items.set i a, by simp [t.size]⟩

/-- The same thing at every place. -/
def replicate (n : Nat) (a : α) : Table α n := ⟨List.replicate n a, by simp⟩

/-- Every place changed by one function. -/
def map (f : α → β) (t : Table α n) : Table β n := ⟨t.items.map f, by simp [t.size]⟩

end Table

/-- The eight data bits of a lane symbol, or of a byte on the identity bus, in the order they cross the wire, the
most significant first (R46, R71). -/
abbrev LaneBits := Table Bool 8

end Sys2Proof
end

