-- ==== Sys2Proof/Syntax.lean ====
section
/-! DEFINITION. The commands of the part: one constructor of `Instr` for each row of
spec/opcode_table.json. A command is one whole event of the manual (a register write, a bus completion, a
symbol on a lane, an expiry, a message taken between two blocks); its operands are what comes with the
event from outside the part, or which of several like blocks takes it. -/

set_option Elab.async false

namespace Sys2Proof

/-- The eight places of the register window (Table 10-12), each four bytes wide; `unused` is 0x1C. -/
inductive Reg
  | ident | control | attn | attnMask | nudge | boardLo | boardHi | unused
deriving DecidableEq, Repr

/-- The width of a register access: 8, 16 or 32 bits (R182; log entry 40). -/
inductive AccessSize
  | byte | half | word
deriving DecidableEq, Repr

/-- The bytes of an access of a width (R182). -/
def AccessSize.bytes : AccessSize → Nat
  | .byte => 1
  | .half => 2
  | .word => 4

/-- Which bus master made an access: the Chain Walker or the Status Writer (R127). -/
inductive BusAgent
  | walker | statusWriter
deriving DecidableEq, Repr

/-- Where a memory withheld the acknowledge that a try needs (R71, Table 4-2). -/
inductive MissingAck
  | writeAddress | offset | readAddress
deriving DecidableEq, Repr

/-- How a try on the identity bus ended (R71): with the eight bytes clocked in, each as its eight data bits in the
order they came, or at a missing acknowledge. -/
inductive TryResult
  | record (bytes : Table LaneBits 8)
  | noAck (at_ : MissingAck)
deriving DecidableEq, Repr

/-- The commands, one for each row of the table, in the table's order. A row that is one field of a CONTROL
write (ATTACH to CLEAR_LINK) carries the whole value written, since R183 makes one write one event. -/
inductive Instr
  | powerOnReset
  | linkReset
  | attach (written : Word)
  | detach (written : Word)
  | poll (written : Word)
  | rigReset (written : Word)
  | clearPowerOn (written : Word)
  | clearRig (written : Word)
  | clearLink (written : Word)
  | nudge (size : AccessSize) (written : Word)
  | boardLo (written : Word)
  | boardHi (written : Word)
  | attn (written : Word)
  | attnMask (written : Word)
  | registerWrite (offset : BitVec 5) (size : AccessSize) (written : Word)
  | beatBoundary
  | keepaliveBoundary (port : PortNo)
  | polling
  | sweepStep (sweep : SweepNo)
  | settleExpiry (port : PortNo)
  | wakePulseEnd (port : PortNo)
  | bootLimitExpiry (port : PortNo)
  | holdLimitExpiry (port : PortNo)
  | resumeLimitExpiry (port : PortNo)
  | stopLimitExpiry (port : PortNo)
  | ackWaitExpiry (port : PortNo)
  | retryGapExpiry (port : PortNo)
  | partPhraseEndOk (port : PortNo)
  | hello (port : PortNo)
  | settled (port : PortNo)
  | awake (port : PortNo)
  | parting (port : PortNo)
  | cameraPhraseDiscarded (port : PortNo)
  | receiveLimit (port : PortNo)
  | plugSenseChange (port : PortNo) (seated : Bool)
  | plugDebounceExpiry (port : PortNo)
  | readerJoin (port : PortNo)
  | readerWithdrawal (port : PortNo)
  | tryEnd (result : TryResult)
  | plugReadRetryExpiry
  | identityResult (port : PortNo)
  | claim (port : PortNo)
  | withdrawal (port : PortNo)
  | release (port : PortNo)
  | returnedGrant (port : PortNo)
  | grant (port : PortNo)
  | grantHistoryExpiry (place : Fin 4)
  | supplyTrip (millivolts : Nat)
  | reArm (millivolts : Nat)
  | trip
  | tripCut (port : PortNo)
  | holdoffExpiry
  | tripLevelChange
  | headerReadComplete (data : Table Byte 64)
  | linkReadComplete (link : Addr)
  | blockReadComplete (data : Table Byte 64)
  | profileListReadComplete (data : List Byte)
  | profileReplacement (port : PortNo)
  | blockWriteComplete
  | headerWriteComplete
  | accessFailure (agent : BusAgent)
  | slotWriteComplete
  | inputLineChange (line : LineNo) (high : Bool)
  | inputDebounceExpiry (line : LineNo)
  | tick
  | symbolAcknowledged (port : PortNo)
  | cameraStartMark (port : PortNo)
  | cameraSymbolReceived (port : PortNo) (data : LaneBits) (parity : Bool)
deriving DecidableEq, Repr

end Sys2Proof
end

