-- ==== Sys2Proof/Decode.lean ====
section
/-! DEFINITION. No row of spec/opcode_table.json gives bits: the part takes events, not instruction words,
so no word spells a command. -/

set_option Elab.async false

namespace Sys2Proof

/-- The command that a word of the table's bits spells: none, since no row of the table gives any bits
(spec/98_reader.md: rows with fields 0). -/
def decodeTableWord (_nbits _w : Nat) : Option Instr := none

end Sys2Proof
end

