-- ==== Sys2Proof/Config.lean ====
section
/-! DEFINITION. What the manual fixes once for the part: the fixed deadline lengths, the identification
value, the defaults of the rig settings and the beat length. The manual leaves no VALUE of an operation
open, so there is no free value here (NOTES.md, Assumptions). -/

set_option Elab.async false

namespace Sys2Proof.Config

/-- HOLD_LIMIT, in ms (Table 1-2a). -/
def holdLimitMs : Nat := 1000

/-- STOP_LIMIT, in ms (Table 1-2a). -/
def stopLimitMs : Nat := 3000

/-- The wake pulse, in ms (R21, Table 2-1). -/
def wakePulseMs : Nat := 10

/-- The plug debounce, in ms (R67). -/
def plugDebounceMs : Nat := 50

/-- The input debounce, in ms (R165). -/
def inputDebounceMs : Nat := 20

/-- ACK_WAIT, in ms (R47). -/
def ackWaitMs : Nat := 2

/-- RETRY_GAP, in ms (R51). -/
def retryGapMs : Nat := 5

/-- One plus PHRASE_RETRIES: the most attempts a phrase receives (R51). -/
def maxAttempts : Nat := 3

/-- The plug-read retry, in ms (R72). -/
def plugRetryMs : Nat := 10

/-- The receive limit, in symbols (R55). -/
def receiveLimit : Nat := 6

/-- Boot-limit expiries and supply-trip cuts that fault a port (R22, R34). -/
def maxBootOrTrip : Nat := 3

/-- Lapse recoveries before a lapse faults the port (R32). -/
def maxRecoveries : Nat := 2

/-- IDENT (Table 10-12). -/
def ident : Word := 0x5A160001#32

/-- The board header's signature (R115). -/
def signature : Word := 0x4E5A5442#32

/-- The layout version (R115). -/
def layoutVersion : Word := 1#32

/-- BEAT_MS after reset (R44). -/
def beatMsDefault : Nat := 100

/-- GRANT_LIMIT's default (Table 6-1). -/
def grantLimitDefault : Nat := 3

/-- WINDOW_MS's default (Table 6-1). -/
def windowMsDefault : Nat := 200

/-- BOOT_CAP's default (Table 6-1). -/
def bootCapDefault : Nat := 4

/-- HOLDOFF_MS's default (Table 6-1). -/
def holdoffMsDefault : Nat := 500

/-- TRIP_LEVEL's default, in 0.1 V (Table 6-1). -/
def tripLevelDefault : Nat := 108

/-- The rig supply on the supply-sense pin in `State.reset`, in millivolts. DESIGN CHOICE (log entry 6):
a pin has no reset value in the manual; this is the default trip level itself, the least supply that R110
leaves ARMED. -/
def supplyAtReset : Nat := 10800

end Sys2Proof.Config
end

