-- ==== Sys2Proof/Machine/State.lean ====
section
/-! DEFINITION. The state of the ZT16, block by block as Table 0-1 lists it, as plain data; the reasons a
step can stop; and the state after power-on reset. -/

set_option Elab.async false

namespace Sys2Proof.Machine

/-- A running deadline: the ticks left. `some 0` is a deadline that has expired and whose expiry its owner
has not yet taken; cancelling or setting it anew until then discards the expiry (R38). -/
abbrev Deadline := Option Nat

/-! ## Ports (chapter 1) -/

/-- The nine fault reasons (Table 1-2). -/
inductive FaultReason
  | plugNoack | plugBad | boot | supply | link | mismatch | hold | resume | lapse
deriving DecidableEq, Repr

/-- The end reasons (Table 1-2); a fault's end reason is its own fault reason (R6). -/
inductive EndReason
  | none
  | fault (reason : FaultReason)
  | stopped | stopLimit | parted | unplugged | cut | lapsed | tripped | bootRetry | cancelled
deriving DecidableEq, Repr

/-- The thirteen readiness states. FAULTED carries the fault reason, which is present exactly there
(Table 1-1). -/
inductive PState
  | empty | identifying | off | queued | powering | booting | tuning | ready | pausing | paused
  | resuming | stopping
  | faulted (reason : FaultReason)
deriving DecidableEq, Repr

/-- The target of a port. -/
inductive Target
  | off | awake | paused
deriving DecidableEq, Repr

/-- The camera class record (Table 4-3), each field the byte read from the cable. -/
structure ClassRecord where
  classCode : Byte
  railSettle : Byte
  bootLimit : Byte
  keepalivePeriod : Byte
  lapseLimit : Byte
  resumeLimit : Byte
deriving DecidableEq, Repr

/-- One camera setting of a profile (R79): a slot 0 to 31 and a 16-bit value. -/
structure ProfileEntry where
  slot : Byte
  value : BitVec 16
deriving DecidableEq, Repr

/-- A profile: its entries in order. The empty list is "no profile" (R79). -/
abbrev Profile := List ProfileEntry

/-- The part's own phrases (Table 3-1). -/
inductive PhraseName
  | keep | set | hold | release | halt
deriving DecidableEq, Repr

/-- The phrase in flight (chapter 3): its symbols, the attempt number and the place of the symbol whose
acknowledgement is awaited. Its kind is KEEP for `keep` and step for the rest. -/
structure Phrase where
  name : PhraseName
  symbols : List Byte
  attempt : Nat
  next : Nat
deriving DecidableEq, Repr

/-- The receive buffer (R55): the symbols stored, the count clocked in, the damaged mark. -/
structure RxBuffer where
  stored : List Byte
  count : Nat
  damaged : Bool
deriving DecidableEq, Repr

/-- The lane state with what each state holds: the phrase in flight in SENDING and GAP, the acknowledge
wait in SENDING, the retry gap in GAP, the receive buffer in RECEIVING (chapter 3). -/
inductive Lane
  | closed
  | free
  | sending (phrase : Phrase) (ackWait : Nat)
  | gap (phrase : Phrase) (retryGap : Nat)
  | receiving (buffer : RxBuffer)
deriving DecidableEq, Repr

/-- What a port hands to the governor (section 6.2). -/
inductive GovMsg
  | claim | withdrawal | release | returnedGrant
deriving DecidableEq, Repr

/-- What the governor hands to a port (section 6.2). -/
inductive PortMsg
  | grant | tripCut
deriving DecidableEq, Repr

/-- What a port hands to the Plug Identity Reader (R70, R76). -/
inductive ReaderMsg
  | join | withdrawal
deriving DecidableEq, Repr

/-- The result of an identity read (R72). -/
inductive IdResult
  | valid (record : ClassRecord)
  | plugBad
  | plugNoack
deriving DecidableEq, Repr

/-- One port: its Port Record (Table 1-1), its restart mark (chapter 5), its link engine (chapter 3), its
plug sense (R67), its wake pulse (R21), and the messages handed to it or by it that their receivers have
not yet taken. `insertWait` is meant while a debounced insertion waits to be taken: the ticks since the debounce
expired. `joinTicket` is meant while a join of the port is on its way to the reader: joins are taken in the order
of their tickets (R69, R78; log entry 43). -/
structure Port where
  plugged : Bool
  classRecord : Option ClassRecord
  firmware : Option Byte
  state : PState
  target : Target
  stamp : Word
  endReason : EndReason
  profile : Profile
  stale : Bool
  cursor : Nat
  restart : Bool
  silence : Nat
  keepDue : Bool
  bootAttempts : Nat
  tripCount : Nat
  recovery : Nat
  waiters : List EntryNo
  timer : Deadline
  stateBeat : Word
  cut : Bool
  lane : Lane
  stepClaim : Bool
  wakePulse : Deadline
  plugLevel : Bool
  plugDebounce : Deadline
  insertWait : Nat
  toGovernor : List GovMsg
  fromGovernor : List PortMsg
  toReader : List ReaderMsg
  joinTicket : Nat
  idResults : List IdResult
  replacements : List Profile
  boundaries : List Word
deriving DecidableEq, Repr

/-- A port after power-on or rig reset (R35, R65, R78, R92), before its plug-sense pin is looked at. -/
def Port.reset : Port where
  plugged := false
  classRecord := none
  firmware := none
  state := .empty
  target := .off
  stamp := 0
  endReason := .none
  profile := []
  stale := false
  cursor := 0
  restart := false
  silence := 0
  keepDue := false
  bootAttempts := 0
  tripCount := 0
  recovery := 0
  waiters := []
  timer := none
  stateBeat := 0
  cut := false
  lane := .closed
  stepClaim := false
  wakePulse := none
  plugLevel := false
  plugDebounce := some Config.plugDebounceMs
  insertWait := 0
  toGovernor := []
  fromGovernor := []
  toReader := []
  joinTicket := 0
  idResults := []
  replacements := []
  boundaries := []

/-! ## Cadence Generator (chapter 2) -/

/-- The four pieces of the Cadence Generator's state. `tickPhase = beatMs` is the instant at which the
phase has reached BEAT_MS and the boundary has not yet been taken. -/
structure Cadence where
  tickPhase : Nat
  beat : Word
  beatMs : Nat
  pendingBeatMs : Option Nat
deriving DecidableEq, Repr

/-! ## Plug Identity Reader (chapter 4) -/

/-- The read in progress: the port, the try number and the bytes received in this try. -/
structure ReadInProgress where
  port : PortNo
  tryNo : Nat
  bytes : List Byte
deriving DecidableEq, Repr

/-- The reader state with what it holds (Table 4-1). -/
inductive ReaderState
  | idle
  | reading (read : ReadInProgress)
  | retryWait (read : ReadInProgress) (retry : Nat)
deriving DecidableEq, Repr

/-- The Plug Identity Reader. -/
structure Reader where
  queue : List PortNo
  state : ReaderState
deriving DecidableEq, Repr

/-! ## Inrush Governor and Supply Monitor (chapter 6) -/

/-- The five rig settings (Table 6-1). -/
structure RigSettings where
  grantLimit : Nat
  windowMs : Nat
  bootCap : Nat
  holdoffMs : Nat
  tripLevel : Nat
deriving DecidableEq, Repr

/-- The governor state; HOLDOFF carries its deadline (chapter 6). -/
inductive GovState
  | opened
  | holdoff (deadline : Nat)
deriving DecidableEq, Repr

/-- The Inrush Governor. The Grant History is the list of its entries' window deadlines, oldest first; the
slot holders are a set of ports. -/
structure Governor where
  settings : RigSettings
  queue : List PortNo
  history : List Nat
  holders : Table Bool 16
  state : GovState
deriving DecidableEq, Repr

/-- The monitor state. -/
inductive MonitorState
  | armed | tripped
deriving DecidableEq, Repr

/-- The Supply Monitor: its copy of the trip level (in 0.1 V), its state, the supply-sense pin (in
millivolts), the trips handed to the governor and the trip levels handed to the monitor, not yet taken. -/
structure Monitor where
  tripLevel : Nat
  state : MonitorState
  supply : Nat
  tripsHanded : Nat
  levelsHanded : List Nat
deriving DecidableEq, Repr

/-! ## Chain Walker (chapter 7) and In-flight Table (chapter 8) -/

/-- The per-port outcome codes (Table 8-4). -/
inductive OutcomeCode
  | none | reached | already | superseded | noCamera | isFaulted | notPaused | notFaulted | unplugged
  | parted | stored | cleared
  | fault (reason : FaultReason)
deriving DecidableEq, Repr

/-- The refusal reasons (Table 8-2). -/
inductive RefusalReason
  | badKind | badFlags | badTarget | badParam | badProfile | groupBusy | rigBusy
deriving DecidableEq, Repr

/-- The halt reasons (Table 7-5). -/
inductive HaltReason
  | badHeader | badLink | badState | bus
deriving DecidableEq, Repr

/-- The walker states; HALTED carries its reason (chapter 7). -/
inductive WalkerState
  | detached | watching | fetching | stalled | detaching
  | halted (reason : HaltReason)
deriving DecidableEq, Repr

/-- The anchor. -/
inductive Anchor
  | absent
  | header
  | block (address : Addr)
deriving DecidableEq, Repr

/-- The addresses copied at the last good header read: the header's own and the Status Page's (R112). -/
structure Board where
  header : Addr
  statusPage : Addr
deriving DecidableEq, Repr

/-- The 64 bytes of the block being judged or held, with its address. -/
structure FetchedCopy where
  address : Addr
  data : Table Byte 64
deriving DecidableEq, Repr

/-- The three ways the walker writes a block (R113). -/
inductive BlockForm
  | taken
  | done (outcomes : Table OutcomeCode 16)
  | refused (reason : RefusalReason)
deriving DecidableEq, Repr

/-- A block write: where, what, whether its request's NOTIFY is set, the In-flight entry it finishes if
any, and whether it is the write of the take that fetched the copy. -/
structure BlockWrite where
  address : Addr
  form : BlockForm
  notify : Bool
  entry : Option EntryNo
  ofTake : Bool
deriving DecidableEq, Repr

/-- The kinds of access of the walker's list (R117). -/
inductive Access
  | headerRead (address : Addr)
  | linkRead
  | blockRead (address : Addr)
  | listRead (address : Addr) (entries : Nat)
  | blockWrite (write : BlockWrite)
  | headerWrite
deriving DecidableEq, Repr

/-- The access on the bus: a read's address and length, or a write's parts in order with the values it
took when it began (R117), and whether it was already in progress at an entry to HALTED (R127). -/
structure BusAccess where
  access : Access
  read : Option (Addr × Nat)
  parts : List (Addr × List Byte)
  atHalt : Bool
deriving DecidableEq, Repr

/-- The Chain Walker. `boundaries` counts beat boundaries delivered to it and not yet taken. -/
structure Walker where
  state : WalkerState
  anchor : Anchor
  takenCount : Word
  finishedCount : Word
  board : Option Board
  copy : Option FetchedCopy
  lookAgain : Bool
  accesses : List Access
  current : Option BusAccess
  boundaries : Nat
deriving DecidableEq, Repr

/-- The status of an occupied In-flight entry. -/
inductive EntryStatus
  | opened | held
deriving DecidableEq, Repr

/-- An occupied In-flight entry (Table 8-6). -/
structure Entry where
  block : Addr
  notify : Bool
  pending : Table Bool 16
  outcomes : Table OutcomeCode 16
  status : EntryStatus
deriving DecidableEq, Repr

/-! ## Group Sweeper and Studio Input Unit (chapter 9) -/

/-- The member list and lead index of a defined group. -/
structure GroupDef where
  members : List PortNo
  lead : Nat
deriving DecidableEq, Repr

/-- A group record (Table 9-1); `defn = none` is "not defined". -/
structure Group where
  defn : Option GroupDef
  active : Nat
deriving DecidableEq, Repr

/-- What a target set carries besides its request reference (R11). -/
structure TargetSet where
  target : Target
  resume : Bool
  cut : Bool
deriving DecidableEq, Repr

/-- The origin of a sweep. -/
inductive Origin
  | request (entry : EntryNo)
  | line (line : LineNo)
deriving DecidableEq, Repr

/-- An occupied sweep record (Table 9-2). `stepsOwed` counts the step events of beat boundaries that the
sweeper has not yet taken for this record. -/
structure Sweep where
  group : GroupNo
  action : TargetSet
  origin : Origin
  startStamp : Word
  cursor : Nat
  remaining : Nat
  stagger : Nat
  beatsUntil : Nat
  stepsOwed : Nat
deriving DecidableEq, Repr

/-- The actions of a binding (R167). -/
inductive Action
  | wake | pause | resume | sleep
deriving DecidableEq, Repr

/-- The edges a binding may name. -/
inductive EdgeSel
  | rise | fall | both
deriving DecidableEq, Repr

/-- A line's binding (R167). -/
structure Binding where
  group : GroupNo
  action : Action
  edge : EdgeSel
  stagger : Nat
deriving DecidableEq, Repr

/-- The last trigger result of a line. -/
inductive TriggerResult
  | none | started | noGroup | noSweep
deriving DecidableEq, Repr

/-- A studio input line: its raw pin, debounced level (true is HIGH), change count, last trigger result
and debounce. -/
structure Line where
  raw : Bool
  level : Bool
  changes : Word
  result : TriggerResult
  debounce : Deadline
deriving DecidableEq, Repr

/-- A line after power-on or rig reset (R171), before its pin is looked at. -/
def Line.reset : Line where
  raw := false
  level := false
  changes := 0
  result := .none
  debounce := some Config.inputDebounceMs

/-! ## Bus Interface Unit (chapter 10) -/

/-- A slot of the Status Page. -/
inductive Slot
  | port (port : PortNo)
  | line (line : LineNo)
  | governor
deriving DecidableEq, Repr

/-- The Status Page write in progress. `orphan` marks a write in progress at an entry to DETACHED or
HALTED, whose end has no further effect (R180). -/
structure SlotWrite where
  slot : Slot
  parts : List (Addr × List Byte)
  orphan : Bool
deriving DecidableEq, Repr

/-- The Status Writer (section 10.5). -/
structure Writer where
  posting : List Slot
  portSerial : Table (BitVec 16) 16
  lineSerial : Table Byte 8
  govSerial : BitVec 16
  current : Option SlotWrite
deriving DecidableEq, Repr

/-- The registers that hold something of their own (section 10.7); IDENT is a constant, and the rest of
CONTROL is read from the walker. -/
structure Registers where
  poll : Bool
  powerOn : Bool
  rig : Bool
  link : Bool
  attn : Word
  attnMask : Word
  boardLo : Word
  boardHi : Word
deriving DecidableEq, Repr

/-- What the part does on its wires: marks, symbols and acknowledgements on the lanes (R46, R55), the
transaction on the identity bus (R71), whose bytes are given as their bits, the most significant first, but for
the direction bit, whose place and level no rule gives (log entry 44), with the release of its two wires
(`idBusRelease`) and of the select (`idRelease`) where a rig reset stops it (R78), and the parts of a write as
they land in host memory (R174). -/
inductive WireAct
  | laneStart (port : PortNo)
  | laneSymbol (port : PortNo) (data : LaneBits) (parity : Bool)
  | laneEnd (port : PortNo)
  | laneAck (port : PortNo)
  | laneWithhold (port : PortNo)
  | idSelect (port : PortNo)
  | idStart
  | idAddress (device : Table Bool 7) (isRead : Bool)
  | idOffset (offset : LaneBits)
  | idReadByte (ack : Bool)
  | idStop
  | idBusRelease
  | idRelease
  | busWrite (address : Addr) (bytes : List Byte)
deriving DecidableEq, Repr

/-- The whole part, and the queue of commands that wait for it. `acts` is the model's own record of what
the last command made the part do on its wires (log entry 5); no command reads it. -/
structure State where
  pending : List Instr
  acts : List WireAct
  cadence : Cadence
  ports : Table Port 16
  stampCounter : Word
  reader : Reader
  governor : Governor
  monitor : Monitor
  walker : Walker
  inflight : Table (Option Entry) 8
  groups : Table Group 8
  pool : Table (Option Sweep) 4
  bindings : Table (Option Binding) 8
  lines : Table Line 8
  writer : Writer
  regs : Registers
deriving DecidableEq, Repr

/-- The part has no fault of its own: no rule of the manual stops it, and no meaning raises one. -/
inductive Fault
deriving DecidableEq, Repr

/-- Why a step can be refused. -/
inductive Refusal
  /-- Raised only by an arm of `exec` whose command has no meaning yet; safe, since nothing is claimed of
  it. No arm is in that case. -/
  | notModelled (mnemonic : String)
deriving DecidableEq, Repr

/-- The part right after power-on reset, with no cable seated, every studio contact open and the supply at
`Config.supplyAtReset` (R35, R44, R65, R78, R92, R110, R129, R154, R170, R171, R181, R187). -/
def State.reset : State where
  pending := []
  acts := []
  cadence := { tickPhase := 0, beat := 0, beatMs := Config.beatMsDefault, pendingBeatMs := none }
  ports := Table.replicate 16 Port.reset
  stampCounter := 0
  reader := { queue := [], state := .idle }
  governor :=
    { settings :=
        { grantLimit := Config.grantLimitDefault, windowMs := Config.windowMsDefault,
          bootCap := Config.bootCapDefault, holdoffMs := Config.holdoffMsDefault,
          tripLevel := Config.tripLevelDefault }
      queue := [], history := [], holders := Table.replicate 16 false, state := .opened }
  monitor :=
    { tripLevel := Config.tripLevelDefault, state := .armed, supply := Config.supplyAtReset,
      tripsHanded := 0, levelsHanded := [] }
  walker :=
    { state := .detached, anchor := .absent, takenCount := 0, finishedCount := 0, board := none,
      copy := none, lookAgain := false, accesses := [], current := none, boundaries := 0 }
  inflight := Table.replicate 8 none
  groups := Table.replicate 8 { defn := none, active := 0 }
  pool := Table.replicate 4 none
  bindings := Table.replicate 8 none
  lines := Table.replicate 8 Line.reset
  writer :=
    { posting := [], portSerial := Table.replicate 16 0, lineSerial := Table.replicate 8 0,
      govSerial := 0, current := none }
  regs :=
    { poll := false, powerOn := true, rig := false, link := false, attn := 0, attnMask := 0,
      boardLo := 0, boardHi := 0 }

end Sys2Proof.Machine
end

