-- ==== Sys2Proof/Machine/Operands.lean ====
section
/-! DEFINITION. The byte layouts and codes of chapter 10 and the fields read from them: the board header,
the request block with its parameters, the profile list, the identity record, the Status Page slots, and the
groups of states the rules speak of. -/

set_option Elab.async false

namespace Sys2Proof.Machine

/-! ## Groups of states (section 1.2) -/

/-- EMPTY and IDENTIFYING. -/
def PState.isAbsent : PState → Bool
  | .empty | .identifying => true
  | _ => false

/-- POWERING and BOOTING. -/
def PState.isWarming : PState → Bool
  | .powering | .booting => true
  | _ => false

/-- TUNING, READY, PAUSING, PAUSED and RESUMING. -/
def PState.isAlive : PState → Bool
  | .tuning | .ready | .pausing | .paused | .resuming => true
  | _ => false

/-- FAULTED, whatever the reason. -/
def PState.isFaulted : PState → Bool
  | .faulted _ => true
  | _ => false

/-- The eight states in which the rail is on (R1). -/
def PState.railOn : PState → Bool
  | .powering | .booting | .tuning | .ready | .pausing | .paused | .resuming | .stopping => true
  | _ => false

/-- The seven states in which the lane is open (R54). -/
def PState.laneOpen : PState → Bool
  | .booting | .tuning | .ready | .pausing | .paused | .resuming | .stopping => true
  | _ => false

/-- The goal state of a target (section 1.4). -/
def Target.goal : Target → PState
  | .off => .off
  | .awake => .ready
  | .paused => .paused

/-- The rail switch output of a port (R1). -/
def Port.railOn (x : Port) : Bool := x.state.railOn

/-- The wake line of a port is driven while the pulse has not ended (R1, R21). -/
def Port.wakeDriven (x : Port) : Bool := x.wakePulse.isSome

/-- Rail settle × 10 ms of the class record (Table 1-2a). A port that times a state holds a class record
(R18); without one the length is 0 (log entry 28). -/
def Port.settleMs (x : Port) : Nat := (x.classRecord.elim 0 (·.railSettle.toNat)) * 10

/-- Boot limit × 100 ms of the class record. -/
def Port.bootMs (x : Port) : Nat := (x.classRecord.elim 0 (·.bootLimit.toNat)) * 100

/-- Resume limit × 10 ms of the class record. -/
def Port.resumeMs (x : Port) : Nat := (x.classRecord.elim 0 (·.resumeLimit.toNat)) * 10

/-- A debounced insertion waits to be taken (R67): the plug debounce has expired, the input shows a cable seated and
plugged is no. -/
def Port.insertDue (x : Port) : Bool := x.plugDebounce == some 0 && x.plugLevel && !x.plugged

/-- A join of the port is on its way to the reader (R69). -/
def Port.joining (x : Port) : Bool := x.toReader.contains .join

/-- The first ticket behind the port's join, if one is on its way (log entry 43). -/
def Port.ticketsUsed (x : Port) : Nat := if x.joining then x.joinTicket + 1 else 0

/-- The reader has a read of port `p` in progress, its try on the bus or its retry waited for (Table 4-1). -/
def ReaderState.serves (x : ReaderState) (p : PortNo) : Bool :=
  match x with
  | .idle => false
  | .reading r => r.port == p
  | .retryWait r _ => r.port == p

/-- The lane is FREE. -/
def Lane.isFree : Lane → Bool
  | .free => true
  | _ => false

/-- The phrase in flight, in SENDING and GAP. -/
def Lane.phrase? : Lane → Option Phrase
  | .sending ph _ => some ph
  | .gap ph _ => some ph
  | _ => none

/-- A phrase of the given name is in flight. -/
def Lane.carries (l : Lane) (n : PhraseName) : Bool :=
  match l.phrase? with
  | some ph => ph.name == n
  | none => false

/-- A step phrase is in flight: any but KEEP. -/
def Lane.stepInFlight (l : Lane) : Bool :=
  match l.phrase? with
  | some ph => ph.name != .keep
  | none => false

/-! ## Codes -/

/-- Fault codes (Table 1-2). -/
def FaultReason.code : FaultReason → Byte
  | .plugNoack => 0x01 | .plugBad => 0x02 | .boot => 0x03 | .supply => 0x04 | .link => 0x05
  | .mismatch => 0x06 | .hold => 0x07 | .resume => 0x08 | .lapse => 0x09

/-- End reason codes (Table 1-2). -/
def EndReason.code : EndReason → Byte
  | .none => 0x00
  | .fault r => r.code
  | .stopped => 0x10 | .stopLimit => 0x11 | .parted => 0x12 | .unplugged => 0x13 | .cut => 0x14
  | .lapsed => 0x15 | .tripped => 0x16 | .bootRetry => 0x17 | .cancelled => 0x18

/-- Outcome codes (Table 8-4); a fault outcome is 0x20 plus the fault code (R6). -/
def OutcomeCode.code : OutcomeCode → Byte
  | .none => 0x00 | .reached => 0x01 | .already => 0x02 | .superseded => 0x03 | .noCamera => 0x04
  | .isFaulted => 0x05 | .notPaused => 0x06 | .notFaulted => 0x07 | .unplugged => 0x08
  | .parted => 0x09 | .stored => 0x0A | .cleared => 0x0B
  | .fault r => 0x20 + r.code

/-- Refusal reason codes (Table 8-2). -/
def RefusalReason.code : RefusalReason → Byte
  | .badKind => 1 | .badFlags => 2 | .badTarget => 3 | .badParam => 4 | .badProfile => 5
  | .groupBusy => 6 | .rigBusy => 7

/-- State codes (Table 10-7). -/
def PState.code : PState → Byte
  | .empty => 0 | .identifying => 1 | .off => 2 | .queued => 3 | .powering => 4 | .booting => 5
  | .tuning => 6 | .ready => 7 | .pausing => 8 | .paused => 9 | .resuming => 10 | .stopping => 11
  | .faulted _ => 12

/-- Target codes (Table 10-7). -/
def Target.code : Target → Byte
  | .off => 0 | .awake => 1 | .paused => 2

/-- Walker state codes (Table 10-14). -/
def WalkerState.code : WalkerState → Nat
  | .detached => 0 | .watching => 1 | .fetching => 2 | .stalled => 3 | .detaching => 4
  | .halted _ => 5

/-- Halt reason codes, none outside HALTED (Table 10-14, R114). -/
def WalkerState.haltCode : WalkerState → Nat
  | .halted .badHeader => 1 | .halted .badLink => 2 | .halted .badState => 3 | .halted .bus => 4
  | _ => 0

/-- Phrase codes of the part (Table 3-1). -/
def PhraseName.code : PhraseName → Byte
  | .keep => 0x10 | .set => 0x20 | .hold => 0x30 | .release => 0x31 | .halt => 0x3F

/-- Last trigger result codes (Table 10-8). -/
def TriggerResult.code : TriggerResult → Byte
  | .none => 0 | .started => 1 | .noGroup => 2 | .noSweep => 3

/-! ## Little-endian fields -/

/-- The number a run of bytes spells, least significant first (section 0.7). -/
def leNat : List Byte → Nat
  | [] => 0
  | b :: rest => b.toNat + 256 * leNat rest

/-- A number as `n` bytes, least significant first. -/
def leBytes : Nat → Nat → List Byte
  | 0, _ => []
  | n + 1, v => BitVec.ofNat 8 v :: leBytes n (v / 256)

/-- One byte of a block at its offset. -/
def byteAt (b : Table Byte 64) (k : Nat) : Byte := b.items.getD k 0

/-- The field of `size` bytes at an offset. -/
def fieldAt (b : Table Byte 64) (off size : Nat) : Nat := leNat ((b.items.drop off).take size)

/-! ## The board header (Table 10-1) -/

/-- The signature is right, the layout version is 1, the status page address is neither 0 nor off a
multiple of 64 (R115). -/
def headerGood (b : Table Byte 64) : Bool :=
  fieldAt b 0 4 == Config.signature.toNat && fieldAt b 4 4 == Config.layoutVersion.toNat &&
    fieldAt b 16 8 != 0 && fieldAt b 16 8 % 64 == 0

/-- The status page address (Table 10-1). -/
def headerStatusPage (b : Table Byte 64) : Addr := BitVec.ofNat 64 (fieldAt b 16 8)

/-! ## The request block (Tables 10-2, 10-3) -/

/-- The block's state field as the walker judges it (R113, R120). -/
inductive BlockState
  | empty | posted | other
deriving DecidableEq, Repr

/-- EMPTY 0, POSTED 1, and every other value (R120). -/
def blockState (b : Table Byte 64) : BlockState :=
  if byteAt b 8 = 0 then .empty else if byteAt b 8 = 1 then .posted else .other

/-- The request kinds (Table 8-1). -/
inductive Kind
  | wake | pause | resume | sleep | clear | setProfile | setGroup | bindInput | setRig
deriving DecidableEq, Repr

/-- The kind a code names; 0 and 10 to 255 name none (R131). -/
def kindOf (b : Table Byte 64) : Option Kind :=
  match (byteAt b 9).toNat with
  | 1 => some .wake
  | 2 => some .pause
  | 3 => some .resume
  | 4 => some .sleep
  | 5 => some .clear
  | 6 => some .setProfile
  | 7 => some .setGroup
  | 8 => some .bindInput
  | 9 => some .setRig
  | _ => none

/-- WAKE, PAUSE, RESUME and SLEEP (Table 8-1). -/
def Kind.isPortTarget : Kind → Bool
  | .wake | .pause | .resume | .sleep => true
  | _ => false

/-- SET_GROUP, BIND_INPUT and SET_RIG (Table 8-1). -/
def Kind.isConfig : Kind → Bool
  | .setGroup | .bindInput | .setRig => true
  | _ => false

/-- Flag CUT, bit 0. -/
def flagCut (b : Table Byte 64) : Bool := (byteAt b 10).getLsbD 0

/-- Flag GROUP, bit 1. -/
def flagGroup (b : Table Byte 64) : Bool := (byteAt b 10).getLsbD 1

/-- Flag NOTIFY, bit 2. -/
def flagNotify (b : Table Byte 64) : Bool := (byteAt b 10).getLsbD 2

/-- A flag other than CUT, GROUP and NOTIFY is set (R132, R174). -/
def flagUnknown (b : Table Byte 64) : Bool := 8 ≤ (byteAt b 10).toNat

/-- The 16-bit target field. -/
def targetField (b : Table Byte 64) : Nat := fieldAt b 16 2

/-- The stagger, in beats. -/
def staggerField (b : Table Byte 64) : Nat := (byteAt b 18).toNat

/-- Every port, in ascending number. -/
def allPorts : List PortNo := [0, 1, 2, 3, 4, 5, 6, 7, 8, 9, 10, 11, 12, 13, 14, 15]

/-- The ports a port mask names, ascending: port p when bit p is 1 (R133). -/
def maskPorts (mask : Nat) : List PortNo := allPorts.filter fun p => mask.testBit p

/-- A port number from a byte, when it is one. -/
def portNo? (b : Byte) : Option PortNo := if h : b.toNat < 16 then some ⟨b.toNat, h⟩ else none

/-- A number below 8 (a line, group or entry number) from a number, when it is one. -/
def small? (n : Nat) : Option (Fin 8) := if h : n < 8 then some ⟨n, h⟩ else none

/-- The target set that a port-target kind hands: its target, the RESUME condition for RESUME, the CUT
mark for SLEEP with CUT (Table 8-1, R139). -/
def kindTargetSet (k : Kind) (cut : Bool) : TargetSet :=
  match k with
  | .pause => { target := .paused, resume := false, cut := false }
  | .resume => { target := .awake, resume := true, cut := false }
  | .sleep => { target := .off, resume := false, cut := cut }
  | _ => { target := .awake, resume := false, cut := false }

/-- The target set of a binding's action; a bound SLEEP never cuts (R134, R157). -/
def Action.targetSet : Action → TargetSet
  | .wake => { target := .awake, resume := false, cut := false }
  | .pause => { target := .paused, resume := false, cut := false }
  | .resume => { target := .awake, resume := true, cut := false }
  | .sleep => { target := .off, resume := false, cut := false }

/-- SET_PROFILE's list address. -/
def listAddress (b : Table Byte 64) : Addr := BitVec.ofNat 64 (fieldAt b 20 8)

/-- SET_PROFILE's entry count. -/
def listCount (b : Table Byte 64) : Nat := (byteAt b 28).toNat

/-- The entries of a profile list, 4 bytes each: slot, pad, value low, value high (Table 10-4). -/
def parseProfile : List Byte → Profile
  | s :: _ :: lo :: hi :: rest => { slot := s, value := hi ++ lo } :: parseProfile rest
  | _ => []

/-- Every slot is at most 31 and no slot stands twice (R79, R90). -/
def profileGood (es : Profile) : Bool :=
  es.all (fun e => e.slot.toNat ≤ 31) && (es.map (·.slot)).Nodup

/-- SET_GROUP's members among the first member-count places, when every one is a port (Table 8-3). -/
def groupMembers? (b : Table Byte 64) (count : Nat) : Option (List PortNo) :=
  (((b.items.drop 23).take 16).take count).mapM portNo?

/-- What a SET_GROUP asks for: a definition, or removal when the count is 0. -/
structure GroupRequest where
  group : GroupNo
  defn : Option GroupDef
deriving DecidableEq, Repr

/-- SET_GROUP's parameters when they pass Table 8-3 (R134). -/
def groupRequest? (b : Table Byte 64) : Option GroupRequest :=
  let count := (byteAt b 21).toNat
  let lead := (byteAt b 22).toNat
  match small? (byteAt b 20).toNat with
  | none => none
  | some g =>
    if count = 0 then
      if lead = 0 then some { group := g, defn := none } else none
    else if count ≤ 16 ∧ lead < count then
      match groupMembers? b count with
      | some ms => if ms.Nodup then some { group := g, defn := some { members := ms, lead := lead } } else none
      | none => none
    else none

/-- What a BIND_INPUT asks for. -/
inductive BindRequest
  | bind (line : LineNo) (binding : Binding)
  | unbind (line : LineNo)
deriving DecidableEq, Repr

/-- An action code (Table 10-3). -/
def action? (n : Nat) : Option Action :=
  match n with
  | 1 => some .wake
  | 2 => some .pause
  | 3 => some .resume
  | 4 => some .sleep
  | _ => none

/-- An edge code (Table 10-3). -/
def edge? (n : Nat) : Option EdgeSel :=
  match n with
  | 1 => some .rise
  | 2 => some .fall
  | 3 => some .both
  | _ => none

/-- BIND_INPUT's parameters when they pass Table 8-3 (R134, R175). -/
def bindRequest? (b : Table Byte 64) : Option BindRequest :=
  match small? (byteAt b 20).toNat, (byteAt b 21).toNat with
  | some l, 1 =>
    match small? (byteAt b 22).toNat, action? (byteAt b 23).toNat, edge? (byteAt b 24).toNat with
    | some g, some a, some e =>
      some (.bind l { group := g, action := a, edge := e, stagger := (byteAt b 25).toNat })
    | _, _, _ => none
  | some l, 2 => some (.unbind l)
  | _, _ => none

/-- What a SET_RIG gives: each setting, when its bit of the given mask is 1 (R175). -/
structure RigOffer where
  grantLimit : Option Nat
  windowMs : Option Nat
  bootCap : Option Nat
  holdoffMs : Option Nat
  tripLevel : Option Nat
  beatMs : Option Nat
deriving DecidableEq, Repr

/-- The settings offer a SET_RIG carries (R94, Table 10-3). -/
def rigOffer (b : Table Byte 64) : RigOffer :=
  let given (k v : Nat) : Option Nat := if (byteAt b 20).getLsbD k then some v else none
  { grantLimit := given 0 (byteAt b 21).toNat
    windowMs := given 1 (fieldAt b 24 2)
    bootCap := given 2 (byteAt b 22).toNat
    holdoffMs := given 3 (fieldAt b 26 2)
    tripLevel := given 4 (byteAt b 23).toNat
    beatMs := given 5 (fieldAt b 28 2) }

/-- A given setting lies in its range; one not given passes (R134). -/
def inRange (lo hi : Nat) : Option Nat → Bool
  | none => true
  | some v => lo ≤ v && v ≤ hi

/-- Each given setting lies in its range (Table 8-3). -/
def RigOffer.inRange (o : RigOffer) : Bool :=
  Machine.inRange 1 4 o.grantLimit && Machine.inRange 20 1000 o.windowMs &&
    Machine.inRange 1 8 o.bootCap && Machine.inRange 100 5000 o.holdoffMs &&
    Machine.inRange 90 115 o.tripLevel && Machine.inRange 10 1000 o.beatMs

/-! ## The identity record (Table 4-3) -/

/-- The class record of eight bytes, when they pass every test of Table 4-3 (R73). -/
def validateRecord (r : Table Byte 8) : Option ClassRecord :=
  let sum := BitVec.ofNat 8 (((r.items.take 7).map (·.toNat)).sum)
  if r.get 0 = 0xA6 ∧ 1 ≤ (r.get 1).toNat ∧ (r.get 1).toNat ≤ 254 ∧ 1 ≤ (r.get 2).toNat ∧
      1 ≤ (r.get 3).toNat ∧ 1 ≤ (r.get 4).toNat ∧ 1 ≤ (r.get 5).toNat ∧ (r.get 5).toNat ≤ 8 ∧
      1 ≤ (r.get 6).toNat ∧ r.get 7 = sum then
    some
      { classCode := r.get 1, railSettle := r.get 2, bootLimit := r.get 3,
        keepalivePeriod := r.get 4, lapseLimit := r.get 5, resumeLimit := r.get 6 }
  else none

/-! ## Slots of the Status Page (Tables 10-5 to 10-9) -/

/-- One byte from a Bool list, bit 0 first. -/
def flagByte (bs : List Bool) : Byte :=
  BitVec.ofNat 8 (bs.foldr (fun b n => (if b then 1 else 0) + 2 * n) 0)

/-- A small number as a byte. -/
def natByte (n : Nat) : Byte := BitVec.ofNat 8 n

/-- Bytes 2 to 21 of a port slot (Table 10-6, R176). -/
def portSlotHead (x : Port) : List Byte :=
  let c := x.classRecord
  [ x.state.code, x.target.code,
    (match x.state with | .faulted r => r.code | _ => 0),
    x.endReason.code,
    flagByte [x.plugged, x.stale, x.keepDue, c.isSome, x.firmware.isSome],
    x.firmware.getD 0,
    c.elim 0 (·.classCode), c.elim 0 (·.railSettle), c.elim 0 (·.bootLimit),
    c.elim 0 (·.keepalivePeriod), c.elim 0 (·.lapseLimit), c.elim 0 (·.resumeLimit),
    natByte x.silence, natByte x.bootAttempts, natByte x.tripCount, natByte x.recovery,
    natByte x.profile.length, natByte x.waiters.length, 0, 0 ]

/-- Bytes 24 to 31 of a port slot: target stamp and state beat. -/
def portSlotTail (x : Port) : List Byte := leBytes 4 x.stamp.toNat ++ leBytes 4 x.stateBeat.toNat

/-- The published fields of a port (R5), as its slot carries them. -/
def portPublished (x : Port) : List Byte := portSlotHead x ++ portSlotTail x

/-- Bytes 2 to 45 of the governor slot (Table 10-9, R177). -/
def governorSlotBody (g : Governor) : List Byte :=
  [ (match g.state with | .opened => 0 | .holdoff _ => 1),
    natByte g.queue.length, natByte g.history.length, natByte (g.holders.items.count true) ] ++
  leBytes 2 (match g.state with | .opened => 0 | .holdoff d => d) ++
  ((g.queue.map fun p => natByte p.val) ++ List.replicate (16 - g.queue.length) 0xFF) ++
  List.replicate 22 0

/-- Where a slot lies on the Status Page (Table 10-5). -/
def Slot.offset : Slot → Nat
  | .port p => 32 * p.val
  | .line n => 0x200 + 8 * n.val
  | .governor => 0x240

/-- Every slot, in the order an attach writes them (R180). -/
def allSlots : List Slot :=
  (allPorts.map Slot.port) ++ ([0, 1, 2, 3, 4, 5, 6, 7].map Slot.line) ++ [Slot.governor]

/-! ## The writes of a block (R174) -/

/-- The parts of a block write, in order: the state byte is written last (R113, R174). -/
def blockWriteParts (a : Addr) (form : BlockForm) (beat : Word) : List (Addr × List Byte) :=
  match form with
  | .taken => [(a + 8, [2])]
  | .done outs =>
    [(a + 11, [0]), (a + 40, outs.items.map (·.code)), (a + 56, leBytes 4 beat.toNat), (a + 8, [3])]
  | .refused r =>
    [(a + 11, [r.code]), (a + 40, List.replicate 16 0), (a + 56, leBytes 4 beat.toNat), (a + 8, [4])]

/-- The anchor field of a header write: 0 while the anchor is the header (R112). -/
def Anchor.field : Anchor → Addr
  | .block a => a
  | _ => 0

end Sys2Proof.Machine
end

