-- ==== Sys2Proof/Machine/Flags.lean ====
section
/-! DEFINITION. The cause bits and the interrupt level, the register views, parity and check symbols, and
the stamp test. -/

set_option Elab.async false

namespace Sys2Proof.Machine

/-- The ATTN causes (Table 10-15). -/
inductive Cause
  | requestDone | portChange | portFault | studioInput | supplyTrip | chainHalt | detached
deriving DecidableEq, Repr

/-- The bit of a cause (Table 10-15). -/
def Cause.bit : Cause → Word
  | .requestDone => 0x01 | .portChange => 0x02 | .portFault => 0x04 | .studioInput => 0x08
  | .supplyTrip => 0x10 | .chainHalt => 0x20 | .detached => 0x40

/-- The bits of ATTN and ATTN_MASK that Table 10-15 names. -/
def causeBits : Word := 0x7F

/-- The interrupt level: some cause is both set and unmasked (R186). -/
def Registers.interrupt (r : Registers) : Bool := (r.attn &&& r.attnMask) != 0

/-- The interrupt of the part's PCIe function. -/
def State.interruptLevel (s : State) : Bool := s.regs.interrupt

/-- BOARD_BASE (R184). -/
def Registers.boardBase (r : Registers) : Addr := r.boardHi ++ r.boardLo

/-- BOARD_BASE is 0 or not a multiple of 64 (R115). -/
def boardBaseBad (a : Addr) : Bool := a.toNat == 0 || a.toNat % 64 != 0

/-- CONTROL as it reads (Table 10-13, R114). -/
def controlValue (s : State) : Word :=
  let bit (b : Bool) (k : Nat) : Nat := if b then 2 ^ k else 0
  BitVec.ofNat 32
    (bit s.regs.poll 2 + bit s.regs.powerOn 8 + bit s.regs.rig 9 + bit s.regs.link 10 +
      s.walker.state.code * 2 ^ 16 + s.walker.state.haltCode * 2 ^ 20)

/-- The value a 32-bit read of the window returns; a read changes nothing (R182). -/
def readRegister (r : Reg) (s : State) : Word :=
  match r with
  | .ident => Config.ident
  | .control => controlValue s
  | .attn => s.regs.attn
  | .attnMask => s.regs.attnMask
  | .nudge => 0
  | .boardLo => s.regs.boardLo
  | .boardHi => s.regs.boardHi
  | .unused => 0

/-- The register at an offset of the window, four bytes to each (Table 10-12). -/
def windowReg (offset : BitVec 5) : Reg :=
  match offset.toNat / 4 with
  | 0 => .ident
  | 1 => .control
  | 2 => .attn
  | 3 => .attnMask
  | 4 => .nudge
  | 5 => .boardLo
  | 6 => .boardHi
  | _ => .unused

/-- A read of the window: the bytes it covers, lowest address first, of the register it lies in (R182). -/
def readWindow (offset : BitVec 5) (z : AccessSize) (s : State) : List Byte :=
  ((leBytes 4 (readRegister (windowReg offset) s).toNat).drop (offset.toNat % 4)).take z.bytes

/-- The number of ones in a byte. -/
def ones (b : Byte) : Nat := ((List.range 8).filter fun k => b.getLsbD k).length

/-- The parity bit that makes the ones of data and parity together odd (R46). -/
def parityBit (b : Byte) : Bool := ones b % 2 == 0

/-- The data bits of a symbol as they cross the lane, the most significant first (R46). -/
def laneBits (b : Byte) : LaneBits := ⟨(List.range 8).map b.getMsbD, by simp⟩

/-- The data of a received symbol: the bit that crosses the lane first is the most significant (R46). -/
def laneData (w : LaneBits) : Byte := BitVec.ofNat 8 (w.items.foldl (fun n b => 2 * n + b.toNat) 0)

/-- A received symbol has good parity: its data bits and its parity bit hold an odd number of ones (R46,
R55). -/
def parityGood (w : LaneBits) (parity : Bool) : Bool := (w.items ++ [parity]).count true % 2 == 1

/-- The check symbol: the exclusive-or of the code and every payload symbol (R48). -/
def checkSymbol (symbols : List Byte) : Byte := symbols.foldl (· ^^^ ·) 0

/-- The symbols of a phrase: code, payload, check (R48). -/
def framed (code : Byte) (payload : List Byte) : List Byte :=
  code :: payload ++ [checkSymbol (code :: payload)]

/-- A valid phrase of a camera (Table 3-1). -/
inductive CameraPhrase
  | hello (classCode firmware : Byte)
  | settled
  | awake
  | parting
deriving DecidableEq, Repr

/-- The judgement of a received phrase at the camera's end mark (R56): none is a discard. A buffer that is
not damaged has stored every symbol clocked in. -/
def judgePhrase (rx : RxBuffer) : Option CameraPhrase :=
  if rx.damaged then none
  else
    match rx.stored with
    | [c, k] =>
      if k ≠ checkSymbol [c] then none
      else if c = 0x90 then some .settled
      else if c = 0x91 then some .awake
      else if c = 0x9F then some .parting
      else none
    | [c, p, f, k] =>
      if c = 0x80 ∧ k = checkSymbol [c, p, f] then some (.hello p f) else none
    | _ => none

/-- Stamp `a` is newer than stamp `b`: (a − b) modulo 2^32 lies in 1 to 2^31 − 1 (R10). So two stamps exactly 2^31
draws apart are neither newer than the other, where R159 remarks that one 2^31 draws before the start stamp reads
as newer: the model's choice between the rules (log entry 42). -/
def stampNewer (a b : Word) : Bool := 1 ≤ (a - b).toNat && (a - b).toNat < 2 ^ 31

end Sys2Proof.Machine
end

