-- ==== Sys2Proof/Machine/Ops.lean ====
section
/-! DEFINITION. The named operations every event is made of: reading and changing one port, entry, group or
record; setting a cause; posting a slot; handing a message; placing an access; giving an outcome. -/

set_option Elab.async false

namespace Sys2Proof.Machine

/-! ## Reading and changing one thing -/

/-- Port `p`. -/
def State.port (s : State) (p : PortNo) : Port := s.ports.get p

/-- Port `p` changed by `f`. -/
def State.modPort (s : State) (p : PortNo) (f : Port → Port) : State :=
  { s with ports := s.ports.set p (f (s.port p)) }

/-- In-flight entry `e`, when occupied. -/
def State.entry (s : State) (e : EntryNo) : Option Entry := s.inflight.get e

/-- Entry `e` filled or freed. -/
def State.setEntry (s : State) (e : EntryNo) (x : Option Entry) : State :=
  { s with inflight := s.inflight.set e x }

/-- Group record `g`. -/
def State.group (s : State) (g : GroupNo) : Group := s.groups.get g

/-- Group record `g` replaced. -/
def State.setGroup (s : State) (g : GroupNo) (x : Group) : State :=
  { s with groups := s.groups.set g x }

/-- Sweep record `r`, when occupied. -/
def State.sweep (s : State) (r : SweepNo) : Option Sweep := s.pool.get r

/-- Sweep record `r` filled or freed. -/
def State.setSweep (s : State) (r : SweepNo) (x : Option Sweep) : State :=
  { s with pool := s.pool.set r x }

/-- The binding of line `n`. -/
def State.binding (s : State) (n : LineNo) : Option Binding := s.bindings.get n

/-- The binding of line `n` set or removed. -/
def State.setBinding (s : State) (n : LineNo) (b : Option Binding) : State :=
  { s with bindings := s.bindings.set n b }

/-- Line `n`. -/
def State.line (s : State) (n : LineNo) : Line := s.lines.get n

/-- Line `n` replaced. -/
def State.setLine (s : State) (n : LineNo) (l : Line) : State :=
  { s with lines := s.lines.set n l }

/-- The walker replaced. -/
def State.setWalker (s : State) (w : Walker) : State := { s with walker := w }

/-- The governor replaced. -/
def State.setGovernor (s : State) (g : Governor) : State := { s with governor := g }

/-- The monitor replaced. -/
def State.setMonitor (s : State) (m : Monitor) : State := { s with monitor := m }

/-- The reader replaced. -/
def State.setReader (s : State) (r : Reader) : State := { s with reader := r }

/-- The Status Writer replaced. -/
def State.setWriter (s : State) (w : Writer) : State := { s with writer := w }

/-- The registers replaced. -/
def State.setRegs (s : State) (r : Registers) : State := { s with regs := r }

/-- The part does something on its wires (log entry 5). -/
def State.emit (s : State) (a : List WireAct) : State := { s with acts := s.acts ++ a }

/-- The record of wire acts emptied, as each command begins (log entry 5). -/
def State.quiet (s : State) : State := { s with acts := [] }

/-! ## Causes and postings -/

/-- A cause is set, whatever ATTN_MASK holds (R185). -/
def State.raise (s : State) (c : Cause) : State :=
  s.setRegs { s.regs with attn := s.regs.attn ||| c.bit }

/-- A posting: the slot joins the tail of the posting list unless it is there already (R178). -/
def State.post (s : State) (x : Slot) : State :=
  if x ∈ s.writer.posting then s
  else s.setWriter { s.writer with posting := s.writer.posting ++ [x] }

/-- The slot of port `p` is posted if a published field differs from what port `x` showed (R5). -/
def State.postIfChanged (x : Port) (p : PortNo) (s : State) : State :=
  if portPublished (s.port p) = portPublished x then s else s.post (.port p)

/-- An operation at port `p`, after which the slot is posted if a published field changed (R5). -/
def State.atPort (s : State) (p : PortNo) (f : State → State) : State :=
  State.postIfChanged (s.port p) p (f s)

/-! ## Messages between blocks (log entry 8) -/

/-- Port `p` hands the governor a message (R3, R95). -/
def State.tellGovernor (s : State) (p : PortNo) (m : GovMsg) : State :=
  s.modPort p fun x => { x with toGovernor := x.toGovernor ++ [m] }

/-- The governor hands port `p` a grant or a trip cut (R95). -/
def State.tellPort (s : State) (p : PortNo) (m : PortMsg) : State :=
  s.modPort p fun x => { x with fromGovernor := x.fromGovernor ++ [m] }

/-- A ticket behind every join on its way to the reader (log entry 43). -/
def State.nextTicket (s : State) : Nat := (allPorts.map fun q => (s.port q).ticketsUsed).foldr max 0

/-- Port `p` hands the Plug Identity Reader a join with a ticket (R69). -/
def State.handJoin (s : State) (p : PortNo) (ticket : Nat) : State :=
  s.modPort p fun x => { x with toReader := x.toReader ++ [.join], joinTicket := ticket }

/-- Port `p` hands the Plug Identity Reader a message (R76). -/
def State.tellReader (s : State) (p : PortNo) (m : ReaderMsg) : State :=
  s.modPort p fun x => { x with toReader := x.toReader ++ [m] }

/-! ## The access list (R117) -/

/-- An access joins the tail of the walker's list. -/
def State.place (s : State) (a : Access) : State :=
  s.setWalker { s.walker with accesses := s.walker.accesses ++ [a] }

/-- The access is a read. -/
def Access.isRead : Access → Bool
  | .headerRead _ | .linkRead | .blockRead _ | .listRead _ _ => true
  | _ => false

/-- The access is a block write. -/
def Access.isBlockWrite : Access → Bool
  | .blockWrite _ => true
  | _ => false

/-- A header write waits with no block write behind it (R117). -/
def headerWriteWaits (l : List Access) : Bool :=
  (l.reverse.takeWhile fun a => !a.isBlockWrite).contains .headerWrite

/-- A header change joins the list: carried by a waiting header write with no block write behind it, else a
new header write at the tail (R117). -/
def State.placeHeaderWrite (s : State) : State :=
  if headerWriteWaits s.walker.accesses then s else s.place .headerWrite

/-! ## Outcomes (R145, R146) -/

/-- The outcome becomes the port's byte and the port leaves the pending set (R145). -/
def State.recordOutcome (s : State) (e : EntryNo) (p : PortNo) (o : OutcomeCode) : State :=
  match s.entry e with
  | none => s
  | some x =>
    s.setEntry e (some { x with outcomes := x.outcomes.set p o, pending := x.pending.set p false })

/-- An OPEN entry whose pending set is empty turns HELD and places its DONE write at the tail (R146). -/
def State.finishEntry (s : State) (e : EntryNo) : State :=
  match s.entry e with
  | none => s
  | some x =>
    if x.status = .opened ∧ x.pending.items.all (!·) then
      (s.setEntry e (some { x with status := .held })).place
        (.blockWrite
          { address := x.block, form := .done x.outcomes, notify := x.notify, entry := some e,
            ofTake := false })
    else s

/-- A port gives a waiting request its outcome, in the event in which it is given (R145, R146). -/
def State.giveOutcome (s : State) (e : EntryNo) (p : PortNo) (o : OutcomeCode) : State :=
  (s.recordOutcome e p o).finishEntry e

/-- Outcomes given in the order of a waiter list. -/
def giveEach (p : PortNo) (o : OutcomeCode) : List EntryNo → State → State
  | [], s => s
  | e :: rest, s => giveEach p o rest (s.giveOutcome e p o)

/-- Every waiter of port `p` receives an outcome, in list order, and is removed (R12, R14, R7, R29, R30). -/
def State.giveAll (s : State) (p : PortNo) (o : OutcomeCode) : State :=
  giveEach p o (s.port p).waiters (s.modPort p fun x => { x with waiters := [] })

/-! ## The stamp counter (R10) -/

/-- A target set or a PARTING at port `p` draws a stamp: the counter plus one, which the counter keeps and the
port stores. -/
def State.drawStamp (s : State) (p : PortNo) : State :=
  { s with stampCounter := s.stampCounter + 1 }.modPort p
    fun x => { x with stamp := s.stampCounter + 1 }

end Sys2Proof.Machine
end

