-- ==== Sys2Proof/Machine/Access.lean ====
section
/-! DEFINITION. The walker's shared operations on its state and its access list (chapter 7), the Status
Writer (section 10.5), and what ends every event: detaching when nothing is left, beginning the next slot
write and the next access. -/

set_option Elab.async false

namespace Sys2Proof.Machine

/-! ## Looks and halts -/

/-- A link read is in the access list or in progress (Table 7-4). -/
def Walker.hasLinkRead (w : Walker) : Bool :=
  w.accesses.contains .linkRead ||
    (match w.current with
      | some b => b.access == .linkRead && !b.atHalt
      | none => false)

/-- A header read is in the access list or in progress (R115). -/
def Walker.hasHeaderRead (w : Walker) : Bool :=
  let isHeaderRead : Access → Bool := fun a => match a with | .headerRead _ => true | _ => false
  w.accesses.any isHeaderRead ||
    (match w.current with
      | some b => isHeaderRead b.access && !b.atHalt
      | none => false)

/-- Entry to WATCHING: a set look-again flag is consumed by a link read (R118). -/
def enterWatching (s : State) : State :=
  let s := s.setWalker { s.walker with state := .watching }
  if s.walker.lookAgain then
    (s.setWalker { s.walker with lookAgain := false }).place .linkRead
  else s

/-- A NUDGE (Table 7-4). -/
def nudgeWalker (s : State) : State :=
  match s.walker.state with
  | .watching =>
    if s.walker.hasLinkRead then s.setWalker { s.walker with lookAgain := true }
    else s.place .linkRead
  | .fetching | .stalled => s.setWalker { s.walker with lookAgain := true }
  | _ => s

/-- A beat boundary at the walker (R43, Table 7-4). -/
def pollWalker (s : State) : State :=
  if s.walker.state = .watching ∧ s.regs.poll ∧ s.walker.hasLinkRead = false then s.place .linkRead
  else s

/-- The access is the block write of a take. -/
def Access.isTakeWrite : Access → Bool
  | .blockWrite w => w.ofTake
  | _ => false

/-- Entry to HALTED (R114, R126): CHAIN_HALT is set, reads leave the list and writes stay, the look-again
flag is cleared, and a copy is dropped unless its take's own write is still owed (log entry 17). An access in
progress is marked as such (R127). -/
def haltWalker (r : HaltReason) (s : State) : State :=
  let w := s.walker
  let owed := w.accesses.any (·.isTakeWrite) || w.current.any (·.access.isTakeWrite)
  (s.setWalker
    { w with
      state := .halted r
      accesses := w.accesses.filter fun a => !a.isRead
      current := w.current.map fun b => { b with atHalt := true }
      lookAgain := false
      copy := if owed then w.copy else none }).raise .chainHalt

/-- ATTACH (R115, R116): BOARD_BASE is judged, and a header read is placed, at the head of the list. In
DETACHED the list is empty, so head and tail are one. -/
def attachWalker (s : State) : State :=
  let base := s.regs.boardBase
  let go (s : State) : State :=
    if s.walker.hasHeaderRead then s
    else if boardBaseBad base then haltWalker .badHeader s
    else s.setWalker { s.walker with accesses := .headerRead base :: s.walker.accesses }
  match s.walker.state with
  | .detached => go s
  | .halted _ => go s
  | _ => s

/-- DETACH (R124): a stalled copy is dropped and the look-again flag cleared; reads in the list are still
made and their data discarded. -/
def detachWalker (s : State) : State :=
  let w := s.walker
  match w.state with
  | .watching | .fetching =>
    s.setWalker { w with state := .detaching, lookAgain := false }
  | .stalled => s.setWalker { w with state := .detaching, lookAgain := false, copy := none }
  | _ => s

/-- The data of a completed read is used: not in DETACHING, nor of a read in progress at an entry to HALTED
(R124, R126). -/
def readCounts (s : State) (b : BusAccess) : Bool := !b.atHalt && s.walker.state != .detaching

/-- The access in progress has ended. -/
def endAccess (s : State) : State := s.setWalker { s.walker with current := none }

/-- The parts of a write land in host memory, in order (R174, R179). -/
def landParts (parts : List (Addr × List Byte)) (s : State) : State :=
  s.emit (parts.map fun x => .busWrite x.1 x.2)

/-! ## The Status Writer -/

/-- The posting list is filled with every slot in order, at a fresh attach or a re-attach (R180). -/
def postWholePage (s : State) : State := s.setWriter { s.writer with posting := allSlots }

/-- The writer writes in WATCHING, FETCHING, STALLED and DETACHING (R180). -/
def WalkerState.attached : WalkerState → Bool
  | .watching | .fetching | .stalled | .detaching => true
  | _ => false

/-- The serial of a slot after it is raised (R178). -/
def Writer.raiseSerial (w : Writer) (x : Slot) : Writer :=
  match x with
  | .port p => { w with portSerial := w.portSerial.set p (w.portSerial.get p + 1) }
  | .line n => { w with lineSerial := w.lineSerial.set n (w.lineSerial.get n + 1) }
  | .governor => { w with govSerial := w.govSerial + 1 }

/-- The parts of a slot write, in order: opening serial, every other byte, closing serial (R179), with the
fields as their owners hold them now (R178). -/
def slotParts (base : Addr) (w : Writer) (x : Slot) (s : State) : List (Addr × List Byte) :=
  let a := base + BitVec.ofNat 64 x.offset
  match x with
  | .port p =>
    let serial := leBytes 2 (w.portSerial.get p).toNat
    [ (a, serial), (a + 2, portSlotHead (s.port p)), (a + 24, portSlotTail (s.port p)),
      (a + 22, serial) ]
  | .line n =>
    let serial := [w.lineSerial.get n]
    let l := s.line n
    [ (a, serial), (a + 1, [if l.level then 1 else 0, l.result.code]),
      (a + 4, leBytes 4 l.changes.toNat), (a + 3, serial) ]
  | .governor =>
    let serial := leBytes 2 w.govSerial.toNat
    [ (a, serial), (a + 2, governorSlotBody s.governor), (a + 46, serial) ]

/-- In DETACHED and HALTED postings are discarded, and a write in progress has no further effect (R180). -/
def silenceWriter (s : State) : State :=
  if s.walker.state.attached then s
  else
    s.setWriter
      { s.writer with
        posting := []
        current := s.writer.current.map fun w => { w with orphan := true } }

/-- The writer begins the write of the slot at the head of its list, with the serial raised (R178). -/
def beginSlotWrite (s : State) : State :=
  if s.walker.state.attached then
    match s.writer.current, s.writer.posting, s.walker.board with
    | none, x :: rest, some board =>
      let w := ({ s.writer with posting := rest }).raiseSerial x
      s.setWriter
        { w with
          current := some { slot := x, parts := slotParts board.statusPage w x s, orphan := false } }
    | _, _, _ => s
  else s

/-! ## Beginning an access (R117) -/

/-- The address of the anchor's link field (R119, R173): in the header, bytes 8 to 15. -/
def linkAddress (s : State) : Addr :=
  match s.walker.anchor with
  | .block a => a
  | _ => (s.walker.board.elim 0 (·.header)) + 8

/-- An access as it goes on the bus, a write with the values of this moment (R117). -/
def busAccess (a : Access) (s : State) : BusAccess :=
  let w := s.walker
  let make (read : Option (Addr × Nat)) (parts : List (Addr × List Byte)) : BusAccess :=
    { access := a, read := read, parts := parts, atHalt := false }
  match a with
  | .headerRead addr => make (some (addr, 64)) []
  | .linkRead => make (some (linkAddress s, 8)) []
  | .blockRead addr => make (some (addr, 64)) []
  | .listRead addr n => make (some (addr, 4 * n)) []
  | .blockWrite b => make none (blockWriteParts b.address b.form s.cadence.beat)
  | .headerWrite =>
    make none
      [ ((w.board.elim 0 (·.header)) + 24,
          leBytes 8 w.anchor.field.toNat ++ leBytes 4 w.takenCount.toNat ++
            leBytes 4 w.finishedCount.toNat) ]

/-- The walker may begin this access now: in DETACHED and HALTED only the header read of an ATTACH
(R115, R126). -/
def Walker.mayBegin (w : Walker) (a : Access) : Bool :=
  w.state.attached || (match a with | .headerRead _ => true | _ => false)

/-- The next access of the list begins, when none is in progress (R117). -/
def beginAccess (s : State) : State :=
  match s.walker.current, s.walker.accesses with
  | none, a :: rest =>
    if s.walker.mayBegin a then
      s.setWalker { s.walker with current := some (busAccess a s), accesses := rest }
    else s
  | _, _ => s

/-- In DETACHING, with the In-flight Table and the access list empty, the walker enters DETACHED (R125). -/
def finishDetach (s : State) : State :=
  if s.walker.state = .detaching ∧ s.inflight.items.all (·.isNone) ∧ s.walker.accesses = [] ∧
      s.walker.current = none then
    (s.setWalker
      { s.walker with state := .detached, anchor := .absent, copy := none, lookAgain := false }).raise
      .detached
  else s

/-- What ends every event: DETACHED is entered when nothing is left (R125), the Status Writer falls silent
or begins its next write (R178, R180), the walker's next access begins (R117; log entry 24). -/
def settle (s : State) : State := beginAccess (beginSlotWrite (silenceWriter (finishDetach s)))

/-! ## Events -/

/-- An event with an effect: the body, then what ends every event. -/
def event (body : State → State) (s : State) : Host.Outcome State Fault Refusal :=
  .next (settle (body s.quiet))

/-- An event at port `p`: the body, the posting of the slot if a published field changed, then what ends
every event. -/
def portEvent (p : PortNo) (body : State → State) (s : State) : Host.Outcome State Fault Refusal :=
  event (fun s => s.atPort p body) s

/-- A command whose event cannot occur in this state: nothing changes (log entry 3). -/
def noEvent (s : State) : Host.Outcome State Fault Refusal := .next s.quiet

end Sys2Proof.Machine
end

