-- ==== Sys2Proof/Machine/Lane.lean ====
section
/-! DEFINITION. The tether link engine's shared operations (chapter 3): beginning an attempt, the grant
point, abandonment, the silence update. -/

set_option Elab.async false

namespace Sys2Proof.Machine

/-! ## The lines of a lane between events -/

/-- The clock line of a lane, which the part alone drives (R46). -/
inductive LaneClock
  | stopped | running | held
deriving DecidableEq, Repr

/-- The data line of a lane: released by both ends, or left by the part for the camera to drive. -/
inductive LaneData
  | released | camera
deriving DecidableEq, Repr

/-- The clock line: stopped between phrases (R46), on a closed lane (R54), in the retry gap and at the receive
limit (R55); held in the acknowledge slot that an attempt waits in (R47); running for the camera's symbols
(R55). -/
def Lane.clock : Lane → LaneClock
  | .closed | .free | .gap _ _ => .stopped
  | .sending _ _ => .held
  | .receiving rx => if rx.count < Config.receiveLimit then .running else .stopped

/-- The data line: released between phrases; in an acknowledge slot the part as sender has released it, and the
camera drives it or leaves it; in a reception the camera sends (R46, R55). The part's own marks, bits and
acknowledgements begin and end inside an event, and are wire acts. -/
def Lane.data (l : Lane) : LaneData :=
  match l.clock with
  | .stopped => .released
  | _ => .camera

/-! ## The engine -/

/-- The wire acts of sending one symbol: its data bits in the order of R46, then its parity bit. -/
def symbolActs (p : PortNo) (b : Byte) : List WireAct := [.laneSymbol p (laneBits b) (parityBit b)]

/-- The symbol at the place whose acknowledgement is awaited. -/
def Phrase.symbol (ph : Phrase) : Byte := ph.symbols.getD ph.next 0

/-- The symbol awaited is the check symbol, the last one (R50). -/
def Phrase.atCheck (ph : Phrase) : Bool := ph.next + 1 == ph.symbols.length

/-- An attempt begins: start mark, first symbol, acknowledge wait (R47, R50; log entry 9). -/
def beginAttempt (p : PortNo) (ph : Phrase) (s : State) : State :=
  (s.modPort p fun x => { x with lane := .sending ph Config.ackWaitMs }).emit
    (.laneStart p :: symbolActs p ph.symbol)

/-- A phrase of the part, at its first attempt, with the symbols fixed at the grant (R49). -/
def newPhrase (n : PhraseName) (payload : List Byte) : Phrase :=
  { name := n, symbols := framed n.code payload, attempt := 1, next := 0 }

/-- The step phrase that a state and a target call for (R15). -/
def stepCall (st : PState) (t : Target) : Option PhraseName :=
  match st, t with
  | .tuning, .off => some .halt
  | .tuning, _ => some .set
  | .ready, .off => some .halt
  | .ready, .paused => some .hold
  | .pausing, .off => some .halt
  | .pausing, .awake => some .release
  | .paused, .off => some .halt
  | .paused, .awake => some .release
  | .resuming, .off => some .halt
  | .resuming, .paused => some .hold
  | _, _ => none

/-- The payload of a step phrase: for SET the slot and the value, high byte first, of the entry at the
tuning cursor (R82). -/
def Port.stepPayload (x : Port) (n : PhraseName) : Option (List Byte) :=
  match n with
  | .set =>
    match x.profile[x.cursor]? with
    | some e => some [e.slot, e.value.extractLsb' 8 8, e.value.extractLsb' 0 8]
    | none => none
  | _ => some []

/-- The step phrase chosen at the grant from the port's state and target (R15, R49). -/
def Port.chooseStep (x : Port) : Option Phrase :=
  match stepCall x.state x.target with
  | none => none
  | some n => (x.stepPayload n).map (newPhrase n)

/-- A grant point (R61): a free lane goes to a KEEP if keepalive due is yes, else to the step phrase the
claim asks for, else stays FREE. The claim is cleared as it is granted, and lapses if nothing is called
for. -/
def grantPoint (p : PortNo) (s : State) : State :=
  if (s.port p).lane = .free then
    if (s.port p).keepDue then beginAttempt p (newPhrase .keep []) s
    else if (s.port p).stepClaim then
      let s := s.modPort p fun x => { x with stepClaim := false }
      match (s.port p).chooseStep with
      | some ph => beginAttempt p ph s
      | none => s
    else s
  else s

/-- The sequencer raises the step claim if the port's alive state and target call for a phrase (R62). -/
def raiseClaim (p : PortNo) (s : State) : State :=
  s.modPort p fun x =>
    { x with stepClaim := x.stepClaim || (stepCall x.state x.target).isSome }

/-- A whole exchange has succeeded: in an alive state silence and keepalive due return to 0 and no (R59). -/
def noteExchange (p : PortNo) (s : State) : State :=
  s.modPort p fun x => if x.state.isAlive then { x with silence := 0, keepDue := false } else x

/-- The exchange in progress is abandoned by a rail cut (R53): an attempt on the wire is closed with an end
mark, nothing is reported, the step claim is cleared and the lane is CLOSED. -/
def abandonLane (p : PortNo) (s : State) : State :=
  let acts : List WireAct :=
    match (s.port p).lane with
    | .sending _ _ => [.laneEnd p]
    | _ => []
  (s.modPort p fun x => { x with lane := .closed, stepClaim := false }).emit acts

end Sys2Proof.Machine
end

