-- ==== Sys2Proof/Machine/Sequencer.lean ====
section
/-! DEFINITION. The port sequencer's shared operations (chapters 1 and 5): entering a state, cutting the rail,
faulting, tuning, reaching a target, taking a target set, taking a profile replacement. -/

set_option Elab.async false

namespace Sys2Proof.Machine

/-! ## Entering states -/

/-- A change of state (R5): state beat and PORT_CHANGE, and the slot is posted. The state timer of the state
left is cancelled (R4); leaving the alive states clears silence, keepalive due and the step claim (R2, R62);
leaving TUNING clears the cursor and the restart mark (R84). Entering the state the port is in is no change
(log entry 14). -/
def enterState (p : PortNo) (st : PState) (s : State) : State :=
  if (s.port p).state = st then s
  else
    ((s.modPort p fun x =>
      { x with
        state := st
        stateBeat := s.cadence.beat
        timer := none
        silence := if st.isAlive then x.silence else 0
        keepDue := if st.isAlive then x.keepDue else false
        stepClaim := if st.isAlive then x.stepClaim else false
        cursor := if st = .tuning then x.cursor else 0
        restart := if st = .tuning then x.restart else false }).raise .portChange).post (.port p)

/-- The state timer is set (R4). -/
def setTimer (p : PortNo) (d : Deadline) (s : State) : State :=
  s.modPort p fun x => { x with timer := d }

/-- The target is reached (R14): every waiter receives REACHED, and the recovery count goes to 0. -/
def reached (p : PortNo) (s : State) : State :=
  (s.giveAll p .reached).modPort p fun x => { x with recovery := 0 }

/-- The target is reached if the port is in its goal state (R14). -/
def reachIfGoal (p : PortNo) (s : State) : State :=
  if (s.port p).state = (s.port p).target.goal then reached p s else s

/-- Entry to QUEUED, with a claim at the governor (R3). -/
def queueUp (p : PortNo) (s : State) : State :=
  (enterState p .queued s).tellGovernor p .claim

/-- Entry to OFF (R19): the three counts go to 0; target OFF is reached there, any other goes on to
QUEUED in the same event. -/
def enterOff (p : PortNo) (s : State) : State :=
  let s := enterState p .off
    (s.modPort p fun x => { x with bootAttempts := 0, tripCount := 0, recovery := 0 })
  if (s.port p).target = .off then reached p s else queueUp p s

/-- The rail is cut, if it is on (R1): the wake pulse ends, the lane is abandoned and closed (R53), the end
reason is written (R6). -/
def cutRail (p : PortNo) (why : EndReason) (s : State) : State :=
  if (s.port p).railOn then
    (abandonLane p s).modPort p fun x => { x with wakePulse := none, endReason := why }
  else s

/-- The port gives up what it holds with the governor: its claim in QUEUED, its slot when warming (R3). -/
def giveUpHoldings (p : PortNo) (s : State) : State :=
  if (s.port p).state = .queued then s.tellGovernor p .withdrawal
  else if (s.port p).state.isWarming then s.tellGovernor p .release
  else s

/-- Entry to FAULTED (R7). -/
def fault (p : PortNo) (r : FaultReason) (s : State) : State :=
  let s := giveUpHoldings p (cutRail p (.fault r) s)
  let s := s.modPort p fun x => { x with target := .off, endReason := .fault r }
  (enterState p (.faulted r) (s.giveAll p (.fault r))).raise .portFault

/-- Entry to READY (R24): target AWAKE is reached, and the step phrase another target calls for is asked
of the arbiter (R62). -/
def enterReady (p : PortNo) (s : State) : State :=
  raiseClaim p (reachIfGoal p (enterState p .ready s))

/-- The end of tuning: stale no, cursor 0, READY entered (R83). -/
def finishTuning (p : PortNo) (s : State) : State :=
  enterReady p (s.modPort p fun x => { x with stale := false, cursor := 0, restart := false })

/-- Entry to TUNING (R81): cursor 0, restart mark cleared, stale yes; with a profile the step claim is
raised, without one the port is READY in the same event. -/
def enterTuning (p : PortNo) (s : State) : State :=
  let s := (enterState p .tuning s).modPort p
    fun x => { x with cursor := 0, restart := false, stale := true }
  if (s.port p).profile = [] then finishTuning p s else raiseClaim p s

/-- Entry to PAUSING after HOLD: the HOLD_LIMIT timer runs if the target is PAUSED (R4, R25). -/
def enterPausing (p : PortNo) (s : State) : State :=
  let s := enterState p .pausing s
  raiseClaim p
    (setTimer p (if (s.port p).target = .paused then some Config.holdLimitMs else none) s)

/-- Entry to RESUMING after RELEASE: the resume-limit timer runs if the target is AWAKE (R4, R27). -/
def enterResuming (p : PortNo) (s : State) : State :=
  let s := enterState p .resuming s
  raiseClaim p
    (setTimer p (if (s.port p).target = .awake then some (s.port p).resumeMs else none) s)

/-- Entry to STOPPING after HALT, with the STOP_LIMIT timer (R28). -/
def enterStopping (p : PortNo) (s : State) : State :=
  setTimer p (some Config.stopLimitMs) (enterState p .stopping s)

/-- Entry to PAUSED at SETTLED (R25, R26). -/
def enterPaused (p : PortNo) (s : State) : State :=
  raiseClaim p (reachIfGoal p (enterState p .paused s))

/-! ## Phrase endings (R16, R52) -/

/-- A SET that ended OK (R83). -/
def setDone (p : PortNo) (s : State) : State :=
  let x := s.port p
  if x.restart then
    let s := s.modPort p fun x => { x with cursor := 0, restart := false }
    if x.profile = [] then finishTuning p s else raiseClaim p s
  else if x.cursor + 1 < x.profile.length then
    raiseClaim p (s.modPort p fun x => { x with cursor := x.cursor + 1 })
  else finishTuning p s

/-- The ending of a step phrase, OK or FAILED (Table 1-3a). -/
def applyStep (p : PortNo) (n : PhraseName) (ok : Bool) (s : State) : State :=
  match n, ok with
  | .keep, _ => s
  | .halt, _ => enterStopping p s
  | .set, true => setDone p s
  | .hold, true => enterPausing p s
  | .release, true => enterResuming p s
  | .set, false => fault p .link s
  | .hold, false => fault p .link s
  | .release, false => fault p .link s

/-- The end of a KEEP: a READY port with stale yes enters TUNING (R86). -/
def keepEnded (p : PortNo) (s : State) : State :=
  if (s.port p).state = .ready ∧ (s.port p).stale then enterTuning p s else s

/-- A part phrase ends, in R52's order: the phrase is removed and the lane FREE, silence is updated, the
ending is applied, and the event is a grant point if the lane is still open. -/
def endPhrase (p : PortNo) (ph : Phrase) (ok : Bool) (s : State) : State :=
  let s := s.modPort p fun x => { x with lane := .free }
  let s := if ok then noteExchange p s else s
  grantPoint p (if ph.name = .keep then keepEnded p s else applyStep p ph.name ok s)

/-! ## Camera phrases (R57) -/

/-- A valid HELLO in BOOTING with the record's class (R22). -/
def bootHello (p : PortNo) (s : State) : State :=
  enterTuning p
    ((s.tellGovernor p .release).modPort p
      fun x => { x with silence := 0, bootAttempts := 0, tripCount := 0 })

/-- A valid HELLO in an alive state with the record's class: the camera has rebooted itself (R31). -/
def rebootHello (p : PortNo) (s : State) : State :=
  enterTuning p
    (s.modPort p fun x =>
      { x with
        timer := none, silence := 0, keepDue := false, stale := true, bootAttempts := 0
        tripCount := 0, stepClaim := false })

/-- A valid HELLO is taken in BOOTING, an alive state or STOPPING: the firmware level is stored, and a
class other than the record's faults the port (R22, R31, R58). -/
def takeHello (p : PortNo) (classCode firmware : Byte) (s : State) : State :=
  let s := s.modPort p fun x => { x with firmware := some firmware }
  let x := s.port p
  if x.classRecord.map (·.classCode) ≠ some classCode then fault p .mismatch s
  else if x.state = .booting then bootHello p s
  else if x.state.isAlive then rebootHello p s
  else s

/-- A valid SETTLED (R25). -/
def takeSettled (p : PortNo) (s : State) : State :=
  if (s.port p).state = .pausing then enterPaused p s else s

/-- A valid AWAKE (R27). -/
def takeAwake (p : PortNo) (s : State) : State :=
  if (s.port p).state = .resuming then
    if (s.port p).stale then enterTuning p s else enterReady p s
  else s

/-- PARTING in an alive state (R30). -/
def partAlive (p : PortNo) (s : State) : State :=
  let s := (cutRail p .parted s).drawStamp p
  enterOff p ((s.modPort p fun x => { x with target := .off }).giveAll p .parted)

/-- A valid PARTING: it parts an alive port (R30), ends a stop (R28), and is ignored in BOOTING. -/
def takeParting (p : PortNo) (s : State) : State :=
  if (s.port p).state.isAlive then partAlive p s
  else if (s.port p).state = .stopping then enterOff p (cutRail p .stopped s)
  else s

/-- A valid camera phrase at its end mark, in R56's order: the lane is FREE, silence is updated, the
sequencer takes the phrase, and the event is a grant point if the lane is still open. -/
def endReception (p : PortNo) (take : State → State) (s : State) : State :=
  grantPoint p (take (noteExchange p (s.modPort p fun x => { x with lane := .free })))

/-! ## Lapse, cut, plug -/

/-- A lapse (R32). -/
def lapse (p : PortNo) (s : State) : State :=
  let x := s.port p
  let s := s.modPort p fun x => { x with stale := true }
  if x.target = .off then enterOff p (cutRail p .lapsed s)
  else if x.recovery < Config.maxRecoveries then
    queueUp p ((cutRail p .lapsed s).modPort p fun x => { x with recovery := x.recovery + 1 })
  else fault p .lapse s

/-- The cut of a SLEEP with CUT at a port that is QUEUED or has its rail on (R33). -/
def cutToOff (p : PortNo) (s : State) : State :=
  enterOff p (cutRail p .cut (giveUpHoldings p s))

/-- A debounced insertion (R18, R68). A result of an earlier read cannot reach this identification (R76). Its join
stands behind every join handed before it (R69, R78). -/
def insertPlug (p : PortNo) (s : State) : State :=
  (enterState p .identifying
    (s.modPort p fun x => { x with plugged := true, idResults := [] })).handJoin p s.nextTicket

/-- Step 3 of R29 at an IDENTIFYING port. A join the reader has not taken yet is annulled, so that only an
IDENTIFYING port ever joins the queue (R69). A port that waits in the Reader Queue leaves it in this event
(R75). One that neither waited nor had a join on its way is being read or has been served, and hands a
withdrawal (R76; log entry 15). -/
def leaveReader (p : PortNo) (s : State) : State :=
  if (s.port p).state = .identifying then
    let joining : Bool := (s.port p).joining
    let waits : Bool := decide (p ∈ s.reader.queue) && !s.reader.state.serves p
    let s := s.modPort p fun x => { x with toReader := x.toReader.filter (· != .join) }
    let s := if waits then s.setReader { s.reader with queue := s.reader.queue.erase p } else s
    if waits || joining then s else s.tellReader p .withdrawal
  else s

/-- A debounced removal (R29). -/
def removePlug (p : PortNo) (s : State) : State :=
  let s := leaveReader p (giveUpHoldings p (cutRail p .unplugged s))
  let s := s.modPort p fun x =>
    { x with
      classRecord := none, firmware := none, target := .off, endReason := .unplugged
      bootAttempts := 0, tripCount := 0, recovery := 0, plugged := false }
  enterState p .empty (s.giveAll p .unplugged)

/-- CLEAR of a plug fault (R77): the port is IDENTIFYING again and hands the reader a join. -/
def identifyAgain (p : PortNo) (ticket : Nat) (s : State) : State :=
  (enterState p .identifying s).handJoin p ticket

/-- CLEAR at a port (R8): a plug fault is read again, its join with the given ticket; any other fault goes to OFF. -/
def clearPort (p : PortNo) (ticket : Nat) (s : State) : OutcomeCode × State :=
  match (s.port p).state with
  | .faulted .plugNoack => (.cleared, identifyAgain p ticket s)
  | .faulted .plugBad => (.cleared, identifyAgain p ticket s)
  | .faulted _ => (.cleared, enterOff p s)
  | _ => (.notFaulted, s)

/-- The result of an identity read at the port (R74); outside IDENTIFYING it is discarded. -/
def takeIdResult (p : PortNo) (r : IdResult) (s : State) : State :=
  if (s.port p).state = .identifying then
    match r with
    | .valid c => enterOff p (s.modPort p fun x => { x with classRecord := some c })
    | .plugBad => fault p .plugBad s
    | .plugNoack => fault p .plugNoack s
  else s

/-! ## Target sets (R11, R12, R17, R137) -/

/-- What a port answers to a target set in the event that hands it. -/
inductive Answer
  | decided (o : OutcomeCode)
  | waiting
deriving DecidableEq, Repr

/-- Why a port declines a target set, in R11's order. -/
def declines (x : Port) (t : TargetSet) : Option OutcomeCode :=
  if x.state.isAbsent then some .noCamera
  else if x.state.isFaulted then some .isFaulted
  else if t.resume ∧ x.target ≠ .paused then some .notPaused
  else none

/-- The answer to a target set by the port's state (Table 8-5). -/
def answerTo (x : Port) (t : TargetSet) : Answer :=
  match declines x t with
  | some o => .decided o
  | none =>
    if x.state = t.target.goal then .decided .already
    else if t.target = .off ∧ (x.state = .queued ∨ x.state.isWarming) then .decided .reached
    else if t.target = .off ∧ t.cut ∧ x.state.railOn then .decided .reached
    else .waiting

/-- The wait of PAUSING or RESUMING (R4): it runs while the target is the awaited one and no step phrase has
begun; a running wait continues, a stopped one is set anew in full. -/
def waitFor (p : PortNo) (awaited : Target) (ms : Nat) (s : State) : State :=
  s.modPort p fun x =>
    { x with
      timer :=
        if x.target = awaited then
          if x.timer.isSome ∨ x.lane.stepInFlight then x.timer else some ms
        else none }

/-- A target set in an alive state raises the step claim when it changes what is called for (R62); at a FREE
lane that is a grant point (R61). -/
def callAgain (p : PortNo) (old : Target) (s : State) : State :=
  let x := s.port p
  if stepCall x.state x.target ≠ stepCall x.state old ∧ (stepCall x.state x.target).isSome then
    grantPoint p (raiseClaim p s)
  else s

/-- What a newly stored target does to the port (Table 1-3), `old` being the target before. -/
def actOnTarget (p : PortNo) (old : Target) (s : State) : State :=
  let x := s.port p
  match x.state with
  | .off => if x.target = .off then s else queueUp p s
  | .queued => if x.target = .off then enterOff p (s.tellGovernor p .withdrawal) else s
  | .powering | .booting =>
    if x.target = .off then enterOff p (giveUpHoldings p (cutRail p .cancelled s)) else s
  | .tuning | .ready | .paused => callAgain p old s
  | .pausing => callAgain p old (waitFor p .paused Config.holdLimitMs s)
  | .resuming => callAgain p old (waitFor p .awake x.resumeMs s)
  | _ => s

/-- Steps 2 to 4 of R12 for a target set that is not declined: waiters of another target receive
SUPERSEDED, the target is stored, and a port already in the goal state clears its recovery count. -/
def storeTarget (p : PortNo) (t : Target) (s : State) : State :=
  let s := if t = (s.port p).target then s else s.giveAll p .superseded
  s.modPort p fun x =>
    { x with target := t, recovery := if x.state = t.goal then 0 else x.recovery }

/-- Steps 5 and 6 of R12: the CUT mark is set, carried out and cleared, and the sequencer acts. -/
def carryOut (p : PortNo) (t : TargetSet) (old : Target) (s : State) : State :=
  let s := s.modPort p fun x => { x with cut := t.cut }
  let s :=
    if t.cut ∧ ((s.port p).state = .queued ∨ (s.port p).railOn) then cutToOff p s
    else actOnTarget p old s
  s.modPort p fun x => { x with cut := false }

/-- The carried request joins the waiter list (R12, step 4). -/
def joinWaiters (p : PortNo) (ref : Option EntryNo) (s : State) : State :=
  match ref with
  | none => s
  | some e => s.modPort p fun x => { x with waiters := x.waiters ++ [e] }

/-- A target set at port `p` (R11, R12), and the port's answer. A request that joins and reaches its goal in
the same event is answered REACHED, so only one that answers WAITING is left on the list (log entry 21). -/
def targetSet (p : PortNo) (t : TargetSet) (ref : Option EntryNo) (s : State) : Answer × State :=
  let x := s.port p
  match answerTo x t, declines x t with
  | a, some _ => (a, s)
  | a, none =>
    (a, s.atPort p fun s =>
      let s := carryOut p t x.target (storeTarget p t.target (s.drawStamp p))
      if a = .waiting then joinWaiters p ref s else s)

/-! ## Profile replacement (R85 to R89) -/

/-- A profile replacement at the port (Table 5-2). One of no entries at a port that then enters READY gives the
waiters of target AWAKE their REACHED in that event (R14, R87), though R85 says that a replacement gives no outcome:
the model's choice between the rules (log entry 41). -/
def takeReplacement (p : PortNo) (list : Profile) (s : State) : State :=
  let s := s.modPort p fun x => { x with profile := list }
  let x := s.port p
  match x.state with
  | .tuning =>
    if x.lane.carries .set then s.modPort p fun x => { x with stale := true, restart := true }
    else
      let s := s.modPort p fun x => { x with stale := true, cursor := 0 }
      grantPoint p (if list = [] then finishTuning p s else raiseClaim p s)
  | .ready =>
    let s := s.modPort p fun x => { x with stale := true }
    if x.lane.phrase?.isSome then s else grantPoint p (enterTuning p s)
  | .pausing | .paused | .resuming | .stopping => s.modPort p fun x => { x with stale := true }
  | _ => s

end Sys2Proof.Machine
end

