-- ==== Sys2Proof/Machine/Sweeper.lean ====
section
/-! DEFINITION. The Group Sweeper's shared operations (chapter 9): the visiting order, a visit, the start and
the end of a sweep, and the judgement of a trigger. -/

set_option Elab.async false

namespace Sys2Proof.Machine

/-- The visiting order of a defined group: from the lead to the end of the list, then from its start
(R156). -/
def GroupDef.visitingOrder (d : GroupDef) : List PortNo := d.members.drop d.lead ++ d.members.take d.lead

/-- The members of a group, none when it is not defined. -/
def State.members (s : State) (g : GroupNo) : List PortNo := (s.group g).defn.elim [] (·.members)

/-- A port answers a target set of a sweep: an outcome becomes the member's byte; WAITING leaves the member
pending (R142, R159). -/
def recordAnswer (o : Origin) (p : PortNo) (a : Answer) (s : State) : State :=
  match o, a with
  | .request e, .decided c => s.recordOutcome e p c
  | _, _ => s

/-- The request reference a sweep's target sets carry (R159). -/
def Origin.ref : Origin → Option EntryNo
  | .request e => some e
  | .line _ => none

/-- A visit of one member (R159): skipped if its stamp is newer than the start stamp, else handed the sweep's
target set. -/
def visitMember (x : Sweep) (p : PortNo) (s : State) : State :=
  if stampNewer (s.port p).stamp x.startStamp then recordAnswer x.origin p (.decided .superseded) s
  else
    let r := targetSet p x.action x.origin.ref s
    recordAnswer x.origin p r.1 r.2

/-- The sweep after a visit (R160): one fewer remaining, the cursor one place on, the stagger to wait. -/
def Sweep.advance (x : Sweep) (places : Nat) : Sweep :=
  { x with
    remaining := x.remaining - 1
    cursor := if x.cursor + 1 < places then x.cursor + 1 else 0
    beatsUntil := x.stagger }

/-- The record is freed and its group's active sweep count lowered (R157, R161). -/
def freeSweep (r : SweepNo) (x : Sweep) (s : State) : State :=
  let g := s.group x.group
  (s.setGroup x.group { g with active := g.active - 1 }).setSweep r none

/-- The visit at the cursor of record `r`, and what follows (R159, R160): the sweep ends, or waits for its
stagger, or with stagger 0 goes on to the next visit; the count bounds the visits. The answer says whether
the sweep ended. -/
def runVisits : Nat → SweepNo → State → Bool × State
  | 0, _, s => (false, s)
  | n + 1, r, s =>
    match s.sweep r with
    | none => (false, s)
    | some x =>
      let ms := s.members x.group
      let s := match ms[x.cursor]? with
        | some p => visitMember x p s
        | none => s
      let y := x.advance ms.length
      if y.remaining = 0 then (true, freeSweep r x s)
      else if x.stagger = 0 then runVisits n r (s.setSweep r (some y))
      else (false, s.setSweep r (some y))

/-- The Sweep Pool records in number order. -/
def allSweeps : List SweepNo := [0, 1, 2, 3]

/-- The free record with the lowest number (R157). -/
def State.freeSweep? (s : State) : Option SweepNo := allSweeps.find? fun r => (s.sweep r).isNone

/-- A sweep of a defined group starts in record `r` (R158): the record is filled, the active sweep count
raised, and the first visit made. -/
def startSweep (r : SweepNo) (g : GroupNo) (d : GroupDef) (t : TargetSet) (o : Origin) (stagger : Nat)
    (s : State) : Bool × State :=
  let x : Sweep :=
    { group := g, action := t, origin := o, startStamp := s.stampCounter, cursor := d.lead
      remaining := d.members.length, stagger := stagger, beatsUntil := stagger, stepsOwed := 0 }
  let gr := s.group g
  runVisits d.members.length r
    ((s.setGroup g { gr with active := gr.active + 1 }).setSweep r (some x))

/-- A binding's edge names a change to HIGH (RISE) or to LOW (FALL) (R167). -/
def EdgeSel.matches (e : EdgeSel) (toHigh : Bool) : Bool :=
  match e with
  | .rise => toHigh
  | .fall => !toHigh
  | .both => true

/-- The judgement of an edge against the line's binding (R167): a matching edge gives a result, and starts a
trigger sweep when its group is defined and a record is free. The first part says whether a sweep ended. -/
def judgeEdge (n : LineNo) (toHigh : Bool) (s : State) : (Bool × Option TriggerResult) × State :=
  match s.binding n with
  | none => ((false, none), s)
  | some b =>
    if b.edge.matches toHigh then
      match (s.group b.group).defn, s.freeSweep? with
      | none, _ => ((false, some .noGroup), s)
      | some _, none => ((false, some .noSweep), s)
      | some d, some r =>
        let x := startSweep r b.group d b.action.targetSet (.line n) b.stagger s
        ((x.1, some .started), x.2)
    else ((false, none), s)

end Sys2Proof.Machine
end

