-- ==== Sys2Proof/Machine/Requests.lean ====
section
/-! DEFINITION. Validating and taking a request (chapters 5, 7 and 8): the checks of Table 8-2, the four
results of R121, the nine kinds. -/

set_option Elab.async false

namespace Sys2Proof.Machine

/-! ## The common checks (R132, R133) -/

/-- BAD_FLAGS (R132). -/
def badFlags (k : Kind) (b : Table Byte 64) : Bool :=
  flagUnknown b || (flagCut b && k != .sleep) || (flagGroup b && !k.isPortTarget) ||
    (staggerField b != 0 && !flagGroup b)

/-- The definition of the group a target field names, when it is below 8 and defined (R133). -/
def targetGroup? (b : Table Byte 64) (s : State) : Option (GroupNo × GroupDef) :=
  match small? (targetField b) with
  | none => none
  | some g => (s.group g).defn.map fun d => (g, d)

/-- BAD_TARGET (R133). -/
def badTarget (k : Kind) (b : Table Byte 64) (s : State) : Bool :=
  if k.isConfig then targetField b != 0
  else if flagGroup b then (targetGroup? b s).isNone
  else targetField b == 0

/-! ## The take (R121) -/

/-- The anchor moves to the block, the taken count rises, and the block write joins the list (R121). -/
def moveAnchor (c : FetchedCopy) (form : BlockForm) (s : State) : State :=
  (s.setWalker
    { s.walker with
      state := .fetching
      anchor := .block c.address
      takenCount := s.walker.takenCount + 1 }).place
    (.blockWrite
      { address := c.address, form := form, notify := flagNotify c.data, entry := none, ofTake := true })

/-- The header write and the link read that end a take (R121, R117). -/
def lookFromAnchor (s : State) : State := s.placeHeaderWrite.place .linkRead

/-- A request is refused (R113, R132). -/
def refuse (c : FetchedCopy) (r : RefusalReason) (s : State) : State :=
  lookFromAnchor (moveAnchor c (.refused r) s)

/-- A request is complete, with its outcomes (R121). -/
def complete (c : FetchedCopy) (outs : Table OutcomeCode 16) (s : State) : State :=
  lookFromAnchor (moveAnchor c (.done outs) s)

/-- Sixteen outcomes NONE. -/
def noOutcomes : Table OutcomeCode 16 := Table.replicate 16 .none

/-- The take is lacking: the walker enters STALLED and holds its copy (R121, R138). -/
def stall (c : FetchedCopy) (s : State) : State :=
  s.setWalker { s.walker with state := .stalled, copy := some c }

/-! ## Port-target requests (R137 to R142) -/

/-- What a run of target sets has answered: the outcome bytes and the pending set. -/
structure Answers where
  outcomes : Table OutcomeCode 16
  pending : Table Bool 16
deriving DecidableEq, Repr

/-- No answers yet. -/
def Answers.empty : Answers := { outcomes := noOutcomes, pending := Table.replicate 16 false }

/-- One port's answer recorded (R139). -/
def Answers.record (x : Answers) (p : PortNo) : Answer → Answers
  | .decided o => { x with outcomes := x.outcomes.set p o }
  | .waiting => { x with pending := x.pending.set p true }

/-- Target sets handed to the ports of a list, in order, with their answers (R139, R140). -/
def handTargets (t : TargetSet) (ref : Option EntryNo) : List PortNo → Answers → State → Answers × State
  | [], a, s => (a, s)
  | p :: rest, a, s =>
    let r := targetSet p t ref s
    handTargets t ref rest (a.record p r.1) r.2

/-- Some port would answer WAITING (R138). -/
def someWaits (t : TargetSet) (ps : List PortNo) (s : State) : Bool :=
  ps.any fun p => answerTo (s.port p) t == .waiting

/-- The In-flight entries in number order. -/
def allEntries : List EntryNo := [0, 1, 2, 3, 4, 5, 6, 7]

/-- The free entry with the lowest number (R138). -/
def State.freeEntry? (s : State) : Option EntryNo := allEntries.find? fun e => (s.entry e).isNone

/-- A request that hands its target sets in the take, in the order given: it completes when no port waits
(R140), is dispatched into a free entry when one does (R139), and is lacking without one (R138). -/
def takeUnstaggered (c : FetchedCopy) (t : TargetSet) (ps : List PortNo) (s : State) : State :=
  if someWaits t ps s then
    match s.freeEntry? with
    | none => stall c s
    | some e =>
      let r := handTargets t (some e) ps Answers.empty s
      lookFromAnchor
        (moveAnchor c .taken
          (r.2.setEntry e
            (some
              { block := c.address, notify := flagNotify c.data, pending := r.1.pending
                outcomes := r.1.outcomes, status := .opened })))
  else
    let r := handTargets t none ps Answers.empty s
    complete c r.1.outcomes r.2

/-- The set of the ports of a list. -/
def portSet (ps : List PortNo) : Table Bool 16 :=
  ps.foldl (fun t p => t.set p true) (Table.replicate 16 false)

/-- A staggered group request (R142): it needs an entry and a record; every member is pending from the start,
and the sweep makes its first visit in the take event. A DONE write of the same entry joins behind the TAKEN
write. -/
def takeStaggered (c : FetchedCopy) (g : GroupNo) (d : GroupDef) (t : TargetSet) (stagger : Nat)
    (s : State) : State :=
  match s.freeEntry?, s.freeSweep? with
  | some e, some r =>
    let s := s.setEntry e
      (some
        { block := c.address, notify := flagNotify c.data, pending := portSet d.members
          outcomes := noOutcomes, status := .opened })
    let x := startSweep r g d t (.request e) stagger s
    lookFromAnchor ((moveAnchor c .taken x.2).finishEntry e)
  | _, _ => stall c s

/-- A valid port-target request (R137): by mask, by group at once, or by a sweep. -/
def takePortTarget (k : Kind) (c : FetchedCopy) (s : State) : State :=
  let b := c.data
  let t := kindTargetSet k (flagCut b)
  if flagGroup b then
    match targetGroup? b s with
    | none => refuse c .badTarget s
    | some (g, d) =>
      if staggerField b = 0 then takeUnstaggered c t d.visitingOrder s
      else takeStaggered c g d t (staggerField b) s
  else takeUnstaggered c t (maskPorts (targetField b)) s

/-! ## Port kinds -/

/-- CLEAR at the ports of a list, in order, with their outcomes (R147). -/
def clearPorts (ticket : Nat) : List PortNo → Table OutcomeCode 16 → State → Table OutcomeCode 16 × State
  | [], o, s => (o, s)
  | p :: rest, o, s =>
    clearPorts ticket rest (o.set p (clearPort p ticket s).1) (s.atPort p fun s => (clearPort p ticket s).2)

/-- A valid CLEAR (R147): the joins of its ports are handed in one event, so they have one ticket, behind every join
handed before. -/
def takeClear (c : FetchedCopy) (s : State) : State :=
  let r := clearPorts s.nextTicket (maskPorts (targetField c.data)) noOutcomes s
  complete c r.1 r.2

/-- One replacement is handed to each port of a list (R91). -/
def handReplacements (list : Profile) : List PortNo → State → State
  | [], s => s
  | p :: rest, s =>
    handReplacements list rest
      (s.modPort p fun x => { x with replacements := x.replacements ++ [list] })

/-- A valid SET_PROFILE with its list (R91): STORED for every named port, a replacement handed to each. -/
def storeProfile (c : FetchedCopy) (list : Profile) (s : State) : State :=
  let ps := maskPorts (targetField c.data)
  complete c (ps.foldl (fun o p => o.set p .stored) noOutcomes) (handReplacements list ps s)

/-- SET_PROFILE as the block read completes (R90): the count and address cases are judged, and a count of 1 to
12 places the list read, the walker staying in FETCHING with its copy. -/
def takeSetProfile (c : FetchedCopy) (s : State) : State :=
  let n := listCount c.data
  if 12 < n then refuse c .badProfile s
  else if n = 0 then storeProfile c [] s
  else if listAddress c.data = 0 ∨ (listAddress c.data).toNat % 4 ≠ 0 then refuse c .badProfile s
  else
    (s.setWalker { s.walker with state := .fetching, copy := some c }).place
      (.listRead (listAddress c.data) n)

/-- SET_PROFILE as its list read completes (R90): the slots are judged and the take is made. -/
def takeProfileList (c : FetchedCopy) (data : List Byte) (s : State) : State :=
  let list := parseProfile data
  if profileGood list then storeProfile c list s else refuse c .badProfile s

/-! ## Configuration kinds -/

/-- The group has an active sweep (R135). -/
def groupBusy (g : GroupNo) (s : State) : Bool := decide (0 < (s.group g).active)

/-- SET_GROUP (R134, R135, R148, R155). -/
def takeSetGroup (c : FetchedCopy) (s : State) : State :=
  match groupRequest? c.data with
  | none => refuse c .badParam s
  | some r =>
    if groupBusy r.group s then refuse c .groupBusy s
    else
      let gr := s.group r.group
      complete c noOutcomes (s.setGroup r.group { gr with defn := r.defn })

/-- BIND_INPUT (R134, R135, R149, R168). -/
def takeBindInput (c : FetchedCopy) (s : State) : State :=
  match bindRequest? c.data with
  | none => refuse c .badParam s
  | some (.bind n b) =>
    if groupBusy b.group s then refuse c .groupBusy s
    else complete c noOutcomes (s.setBinding n (some b))
  | some (.unbind n) =>
    if (s.binding n).any (fun b => groupBusy b.group s) then refuse c .groupBusy s
    else complete c noOutcomes (s.setBinding n none)

/-- The governor is busy: a claim waits or a slot is held (R94). -/
def Governor.busy (g : Governor) : Bool := !g.queue.isEmpty || g.holders.items.contains true

/-- An accepted offer (R94): each given setting is stored, a given TRIP_LEVEL is handed to the monitor, a
given beat length becomes pending (R40). The serving check finds the queue empty and serves nothing. -/
def acceptOffer (o : RigOffer) (s : State) : State :=
  let old := s.governor.settings
  let s := s.setGovernor
    { s.governor with
      settings :=
        { grantLimit := o.grantLimit.getD old.grantLimit
          windowMs := o.windowMs.getD old.windowMs
          bootCap := o.bootCap.getD old.bootCap
          holdoffMs := o.holdoffMs.getD old.holdoffMs
          tripLevel := o.tripLevel.getD old.tripLevel } }
  let s := s.setMonitor
    { s.monitor with levelsHanded := s.monitor.levelsHanded ++ o.tripLevel.toList }
  match o.beatMs with
  | some b => { s with cadence := { s.cadence with pendingBeatMs := some b } }
  | none => s

/-- SET_RIG (R134, R150). -/
def takeSetRig (c : FetchedCopy) (s : State) : State :=
  let o := rigOffer c.data
  if o.inRange = false then refuse c .badParam s
  else if s.governor.busy then refuse c .rigBusy s
  else complete c noOutcomes (acceptOffer o s)

/-! ## Judging a copy -/

/-- A request of a known kind whose common checks have passed. -/
def takeKind (k : Kind) (c : FetchedCopy) (s : State) : State :=
  match k with
  | .wake | .pause | .resume | .sleep => takePortTarget k c s
  | .clear => takeClear c s
  | .setProfile => takeSetProfile c s
  | .setGroup => takeSetGroup c s
  | .bindInput => takeBindInput c s
  | .setRig => takeSetRig c s

/-- A POSTED copy is validated in the order of Table 8-2 and taken (R121, R132). -/
def takeCopy (c : FetchedCopy) (s : State) : State :=
  match kindOf c.data with
  | none => refuse c .badKind s
  | some k =>
    if badFlags k c.data then refuse c .badFlags s
    else if badTarget k c.data s then refuse c .badTarget s
    else takeKind k c s

/-- A STALLED walker makes its take again from the held copy (R122). -/
def retake (s : State) : State :=
  match s.walker.state, s.walker.copy with
  | .stalled, some c => takeCopy c s
  | _, _ => s

/-- After an event in which a sweep ended, a stalled walker takes its copy again (R161, R122). -/
def retakeIf (ended : Bool) (s : State) : State := if ended then retake s else s

end Sys2Proof.Machine
end

