-- ==== Sys2Proof/Machine/Board.lean ====
section
/-! DEFINITION. The bus completions (chapters 7 and 10): HEADER_READ_COMPLETE, LINK_READ_COMPLETE,
BLOCK_READ_COMPLETE, PROFILE_LIST_READ_COMPLETE, BLOCK_WRITE_COMPLETE, HEADER_WRITE_COMPLETE,
ACCESS_FAILURE, SLOT_WRITE_COMPLETE; and the sweeper's and the studio's events, which may free what a stalled
walker lacks: SWEEP_STEP, INPUT_LINE_CHANGE, INPUT_DEBOUNCE_EXPIRY. -/

set_option Elab.async false

namespace Sys2Proof.Machine

/-! ## Reads -/

/-- A good header (R115, R116): with the anchor absent a fresh attach, else a re-attach that keeps the anchor
and the counts; a header write, the whole Status Page, and WATCHING with a look at once. That a re-attach with kept
writes enters WATCHING in this event, and not when they have been made, is the model's choice (log entry 38). -/
def attachGood (header : Addr) (data : Table Byte 64) (s : State) : State :=
  let w := { s.walker with board := some { header := header, statusPage := headerStatusPage data } }
  let w :=
    if w.anchor = .absent then { w with anchor := .header, takenCount := 0, finishedCount := 0 } else w
  enterWatching (postWholePage ((s.setWalker { w with lookAgain := true }).placeHeaderWrite))

/-- The header has been read (R115, R116). -/
def headerRead (header : Addr) (data : Table Byte 64) (s : State) : State :=
  if headerGood data then attachGood header data s else haltWalker .badHeader s

/-- HEADER_READ_COMPLETE (R115, R116). -/
def execHeaderReadComplete (data : Table Byte 64) (s : State) : Host.Outcome State Fault Refusal :=
  match s.walker.current with
  | some b =>
    match b.access with
    | .headerRead a => event (fun s => if readCounts s b then headerRead a data (endAccess s) else endAccess s) s
    | _ => noEvent s
  | none => noEvent s

/-- The anchor's link has been read (R119). -/
def linkRead (link : Addr) (s : State) : State :=
  if link = 0 then enterWatching s
  else if link.toNat % 64 ≠ 0 then haltWalker .badLink s
  else (s.setWalker { s.walker with state := .fetching }).place (.blockRead link)

/-- LINK_READ_COMPLETE (R119). -/
def execLinkReadComplete (link : Addr) (s : State) : Host.Outcome State Fault Refusal :=
  match s.walker.current with
  | some b =>
    match b.access with
    | .linkRead => event (fun s => if readCounts s b then linkRead link (endAccess s) else endAccess s) s
    | _ => noEvent s
  | none => noEvent s

/-- A block has been read (R120). -/
def blockRead (a : Addr) (data : Table Byte 64) (s : State) : State :=
  match blockState data with
  | .empty => enterWatching (s.setWalker { s.walker with copy := none })
  | .posted =>
    let c : FetchedCopy := { address := a, data := data }
    takeCopy c (s.setWalker { s.walker with copy := some c })
  | .other => haltWalker .badState (s.setWalker { s.walker with copy := none })

/-- BLOCK_READ_COMPLETE (R120, R121). -/
def execBlockReadComplete (data : Table Byte 64) (s : State) : Host.Outcome State Fault Refusal :=
  match s.walker.current with
  | some b =>
    match b.access with
    | .blockRead a => event (fun s => if readCounts s b then blockRead a data (endAccess s) else endAccess s) s
    | _ => noEvent s
  | none => noEvent s

/-- A profile list has been read for the copy held (R90). -/
def listRead (data : List Byte) (s : State) : State :=
  match s.walker.copy with
  | some c => takeProfileList c data s
  | none => s

/-- PROFILE_LIST_READ_COMPLETE (R90, R91): the completion of a read brings the bytes the read asked for. -/
def execProfileListReadComplete (data : List Byte) (s : State) : Host.Outcome State Fault Refusal :=
  match s.walker.current with
  | some b =>
    match b.access with
    | .listRead _ n =>
      if data.length = 4 * n then
        event (fun s => if readCounts s b then listRead data (endAccess s) else endAccess s) s
      else noEvent s
    | _ => noEvent s
  | none => noEvent s

/-! ## Writes -/

/-- The copy is released once the block write of its take has completed (R121). -/
def releaseCopy (w : BlockWrite) (s : State) : State :=
  if w.ofTake then s.setWalker { s.walker with copy := none } else s

/-- A DONE or REFUSED write has completed (R123): the finished count rises, REQUEST_DONE is set with NOTIFY,
the entry is freed, and a stalled walker takes its copy again. -/
def finalWritten (w : BlockWrite) (s : State) : State :=
  let s := (s.setWalker { s.walker with finishedCount := s.walker.finishedCount + 1 }).placeHeaderWrite
  let s := if w.notify then s.raise .requestDone else s
  match w.entry with
  | some e => retake (s.setEntry e none)
  | none => s

/-- A block write has completed (R123). -/
def blockWritten (b : BusAccess) (w : BlockWrite) (s : State) : State :=
  let s := releaseCopy w (landParts b.parts (endAccess s))
  match w.form with
  | .taken => s
  | _ => finalWritten w s

/-- BLOCK_WRITE_COMPLETE (R123). -/
def execBlockWriteComplete (s : State) : Host.Outcome State Fault Refusal :=
  match s.walker.current with
  | some b =>
    match b.access with
    | .blockWrite w => event (blockWritten b w) s
    | _ => noEvent s
  | none => noEvent s

/-- HEADER_WRITE_COMPLETE (R117): the write lands, and the next access begins. -/
def execHeaderWriteComplete (s : State) : Host.Outcome State Fault Refusal :=
  match s.walker.current with
  | some b =>
    match b.access with
    | .headerWrite => event (fun s => landParts b.parts (endAccess s)) s
    | _ => noEvent s
  | none => noEvent s

/-! ## Failures -/

/-- A failed write goes back to the head of the kept list, behind the header read of a re-attach if one
waits there (R126, R127; log entry 19). -/
def keepWrite (a : Access) (l : List Access) : List Access :=
  match l with
  | .headerRead h :: rest => .headerRead h :: a :: rest
  | _ => a :: l

/-- A failed access of the walker (R127): a write is kept at the head of the list, and the walker halts with
BUS, unless the access was already in progress at an entry to HALTED. No part of a failed write is recorded as
landed (log entry 36). -/
def walkerFails (b : BusAccess) (s : State) : State :=
  let s := endAccess s
  let s :=
    if b.access.isRead then s
    else s.setWalker { s.walker with accesses := keepWrite b.access s.walker.accesses }
  if b.atHalt then s else haltWalker .bus s

/-- A failed Status Page write (R127, R180): the walker halts with BUS, unless the write was in progress at an
entry to DETACHED or HALTED. No part of it is recorded as landed (log entry 36). -/
def writerFails (w : SlotWrite) (s : State) : State :=
  let s := s.setWriter { s.writer with current := none }
  if w.orphan then s else haltWalker .bus s

/-- ACCESS_FAILURE (R127). -/
def execAccessFailure (agent : BusAgent) (s : State) : Host.Outcome State Fault Refusal :=
  match agent with
  | .walker =>
    match s.walker.current with
    | some b => event (walkerFails b) s
    | none => noEvent s
  | .statusWriter =>
    match s.writer.current with
    | some w => event (writerFails w) s
    | none => noEvent s

/-- SLOT_WRITE_COMPLETE (R178): the write lands, and the next slot's write begins. -/
def execSlotWriteComplete (s : State) : Host.Outcome State Fault Refusal :=
  match s.writer.current with
  | some w => event (fun s => landParts w.parts (s.setWriter { s.writer with current := none })) s
  | none => noEvent s

/-! ## Sweep steps -/

/-- What follows a visit event of a sweep: an entry whose pending set is empty finishes (R146), and the end
of a sweep lets a stalled walker take its copy again (R161). That the DONE write of the entry stands before the
writes of that take is the model's choice (log entry 39). -/
def afterVisits (o : Origin) (r : Bool × State) : State :=
  let s := match o with
    | .request e => r.2.finishEntry e
    | .line _ => r.2
  retakeIf r.1 s

/-- A step of the sweep in record `r` (R160): one beat fewer, and the visit at the count's end. -/
def stepSweep (r : SweepNo) (x : Sweep) (s : State) : State :=
  let y := { x with beatsUntil := x.beatsUntil - 1, stepsOwed := x.stepsOwed - 1 }
  let s := s.setSweep r (some y)
  if y.beatsUntil = 0 then afterVisits x.origin (runVisits x.remaining r s) else s

/-- SWEEP_STEP of record `r`: it takes the oldest boundary it has not yet taken (R160). -/
def execSweepStep (r : SweepNo) (s : State) : Host.Outcome State Fault Refusal :=
  match s.sweep r with
  | some x => if 0 < x.stepsOwed then event (stepSweep r x) s else noEvent s
  | none => noEvent s

/-! ## Studio inputs -/

/-- INPUT_LINE_CHANGE: a change of the raw level sets the debounce anew (R165). -/
def execInputLineChange (n : LineNo) (high : Bool) (s : State) : Host.Outcome State Fault Refusal :=
  if high ≠ (s.line n).raw then
    event (fun s =>
      let l := s.line n
      s.setLine n { l with raw := high, debounce := some Config.inputDebounceMs }) s
  else noEvent s

/-- A debounced change (R166): level, count, STUDIO_INPUT, the judgement of the edge, and the posting of the
line slot. A trigger sweep that ends lets a stalled walker take its copy again (R161), behind the DONE writes of the
entries it finished (log entry 39). -/
def debouncedChange (n : LineNo) (s : State) : State :=
  let l := s.line n
  let s := (s.setLine n { l with level := l.raw, changes := l.changes + 1 }).raise .studioInput
  let r := judgeEdge n l.raw s
  let s := r.2
  let l := s.line n
  let s := (s.setLine n { l with result := r.1.2.getD l.result }).post (.line n)
  retakeIf r.1.1 s

/-- The end of the input debounce: the raw level now is compared with the debounced one (R165). -/
def inputDebounced (n : LineNo) (s : State) : State :=
  let l := s.line n
  let s := s.setLine n { l with debounce := none }
  if l.raw ≠ l.level then debouncedChange n s else s

/-- INPUT_DEBOUNCE_EXPIRY (R165, R166). -/
def execInputDebounceExpiry (n : LineNo) (s : State) : Host.Outcome State Fault Refusal :=
  if (s.line n).debounce = some 0 then event (inputDebounced n) s else noEvent s

end Sys2Proof.Machine
end

