-- ==== Sys2Proof/Machine/Governor.lean ====
section
/-! DEFINITION. The Inrush Governor and the Supply Monitor (chapter 6): CLAIM, WITHDRAWAL, RELEASE,
RETURNED_GRANT, GRANT, GRANT_HISTORY_EXPIRY, SUPPLY_TRIP, RE_ARM, TRIP, TRIP_CUT, HOLDOFF_EXPIRY,
TRIP_LEVEL_CHANGE. -/

set_option Elab.async false

namespace Sys2Proof.Machine

/-- Slots held: the count of the slot holders. -/
def Governor.slotsHeld (g : Governor) : Nat := g.holders.items.count true

/-- The three serving conditions (R100). -/
def Governor.canServe (g : Governor) : Bool :=
  (match g.state with | .opened => true | .holdoff _ => false) &&
    decide (g.slotsHeld < g.settings.bootCap) && decide (g.history.length < g.settings.grantLimit)

/-- Serving the head claim (R100). -/
def serveHead (p : PortNo) (rest : List PortNo) (s : State) : State :=
  let g := s.governor
  (s.setGovernor
    { g with
      queue := rest
      holders := g.holders.set p true
      history := g.history ++ [g.settings.windowMs] }).tellPort p .grant

/-- The head claim is served while the three conditions hold (R101); the count bounds the claims. -/
def serveUpTo : Nat → State → State
  | 0, s => s
  | n + 1, s =>
    match s.governor.queue with
    | [] => s
    | p :: rest => if s.governor.canServe then serveUpTo n (serveHead p rest s) else s

/-- A serving check (R101). -/
def servingCheck (s : State) : State := serveUpTo s.governor.queue.length s

/-- The governor has taken the next message of port `p` (R95). -/
def takeMessage (p : PortNo) (s : State) : State :=
  s.modPort p fun x => { x with toGovernor := x.toGovernor.tail }

/-- A claim is taken (R96). The queue never holds a port twice, and a slot holder's claim has been served:
the claim of a port that is in the queue, or holds a slot, joins nothing (log entry 35: a port that left
QUEUED and came back to it before its crossing grant is powered by that grant, and needs no second one). -/
def takeClaim (p : PortNo) (s : State) : State :=
  let s := takeMessage p s
  if p ∈ s.governor.queue ∨ s.governor.holders.get p = true then s
  else
    servingCheck ((s.setGovernor { s.governor with queue := s.governor.queue ++ [p] }).post .governor)

/-- A withdrawal is taken; without a claim it has no effect (R97). -/
def takeWithdrawal (p : PortNo) (s : State) : State :=
  let s := takeMessage p s
  if p ∈ s.governor.queue then
    (s.setGovernor { s.governor with queue := s.governor.queue.erase p }).post .governor
  else s

/-- A release, or a returned grant, is taken; without a slot it has no effect (R98, R102). -/
def takeRelease (p : PortNo) (s : State) : State :=
  let s := takeMessage p s
  if s.governor.holders.get p then
    servingCheck
      ((s.setGovernor { s.governor with holders := s.governor.holders.set p false }).post .governor)
  else s

/-- A port takes its grant: in QUEUED the rail goes on and POWERING is entered with the settle timer (R20);
elsewhere the grant is returned (R3). R3 asks for the state QUEUED alone: a grant that crossed with a
withdrawal and finds the port in QUEUED again powers it (log entry 35). -/
def takeGrant (p : PortNo) (s : State) : State :=
  let s := s.modPort p fun x => { x with fromGovernor := x.fromGovernor.tail }
  if (s.port p).state = .queued then
    setTimer p (some (s.port p).settleMs) (enterState p .powering s)
  else s.tellGovernor p .returnedGrant

/-- A port takes a trip cut (R34); no longer warming, it changes nothing. -/
def takeTripCut (p : PortNo) (s : State) : State :=
  let s := s.modPort p fun x => { x with fromGovernor := x.fromGovernor.tail }
  if (s.port p).state.isWarming then
    let s := s.modPort p fun x => { x with tripCount := x.tripCount + 1 }
    if (s.port p).tripCount < Config.maxBootOrTrip then
      queueUp p (giveUpHoldings p (cutRail p .tripped s))
    else fault p .supply s
  else s

/-- A trip cut is handed to each slot holder, in the order of the list given (R106). -/
def handCuts : List PortNo → State → State
  | [], s => s
  | p :: rest, s => handCuts rest (if s.governor.holders.get p then s.tellPort p .tripCut else s)

/-- The governor takes a trip (R106). -/
def takeTrip (s : State) : State :=
  let s := s.setMonitor { s.monitor with tripsHanded := s.monitor.tripsHanded - 1 }
  let s := handCuts allPorts s
  (s.setGovernor { s.governor with state := .holdoff s.governor.settings.holdoffMs }).post .governor

/-- The holdoff ends (R107). -/
def endHoldoff (s : State) : State :=
  servingCheck ((s.setGovernor { s.governor with state := .opened }).post .governor)

/-- A History entry's deadline has expired (R99). -/
def expireHistory (i : Nat) (s : State) : State :=
  servingCheck
    ((s.setGovernor { s.governor with history := s.governor.history.eraseIdx i }).post .governor)

/-- The trip level in millivolts: TRIP_LEVEL × 0.1 V (R104). -/
def Monitor.tripMv (m : Monitor) : Nat := m.tripLevel * 100

/-- The re-arm level in millivolts: 0.3 V above the trip level (R104). -/
def Monitor.reArmMv (m : Monitor) : Nat := m.tripLevel * 100 + 300

/-- The monitor compares the supply with its levels (R104, R105, R110). -/
def compareSupply (s : State) : State :=
  let m := s.monitor
  match m.state with
  | .armed =>
    if m.supply < m.tripMv then
      (s.setMonitor { m with state := .tripped, tripsHanded := m.tripsHanded + 1 }).raise .supplyTrip
    else s
  | .tripped => if m.reArmMv < m.supply then s.setMonitor { m with state := .armed } else s

/-- The supply-sense input takes a new value, and the monitor compares it (log entry 13). -/
def supplyMoves (mv : Nat) (s : State) : State :=
  compareSupply (s.setMonitor { s.monitor with supply := mv })

/-- The monitor takes a TRIP_LEVEL (R105). -/
def takeLevel (level : Nat) (rest : List Nat) (s : State) : State :=
  compareSupply (s.setMonitor { s.monitor with tripLevel := level, levelsHanded := rest })

/-- CLAIM (R96). -/
def execClaim (p : PortNo) (s : State) : Host.Outcome State Fault Refusal :=
  if (s.port p).toGovernor.head? = some .claim then event (takeClaim p) s else noEvent s

/-- WITHDRAWAL (R97). -/
def execWithdrawal (p : PortNo) (s : State) : Host.Outcome State Fault Refusal :=
  if (s.port p).toGovernor.head? = some .withdrawal then event (takeWithdrawal p) s else noEvent s

/-- RELEASE (R98). -/
def execRelease (p : PortNo) (s : State) : Host.Outcome State Fault Refusal :=
  if (s.port p).toGovernor.head? = some .release then event (takeRelease p) s else noEvent s

/-- RETURNED_GRANT (R102). -/
def execReturnedGrant (p : PortNo) (s : State) : Host.Outcome State Fault Refusal :=
  if (s.port p).toGovernor.head? = some .returnedGrant then event (takeRelease p) s else noEvent s

/-- GRANT (R20, R3). -/
def execGrant (p : PortNo) (s : State) : Host.Outcome State Fault Refusal :=
  if (s.port p).fromGovernor.head? = some .grant then portEvent p (takeGrant p) s else noEvent s

/-- TRIP_CUT (R34). -/
def execTripCut (p : PortNo) (s : State) : Host.Outcome State Fault Refusal :=
  if (s.port p).fromGovernor.head? = some .tripCut then portEvent p (takeTripCut p) s else noEvent s

/-- GRANT_HISTORY_EXPIRY of the entry at a place of the History (R99). -/
def execGrantHistoryExpiry (i : Fin 4) (s : State) : Host.Outcome State Fault Refusal :=
  if s.governor.history[i.val]? = some 0 then event (expireHistory i.val) s else noEvent s

/-- SUPPLY_TRIP (R104): the supply-sense input moves to a value; below the trip level it trips an ARMED
monitor. -/
def execSupplyTrip (mv : Nat) (s : State) : Host.Outcome State Fault Refusal := event (supplyMoves mv) s

/-- RE_ARM (R104): the supply-sense input moves to a value; above the re-arm level it arms a TRIPPED
monitor. -/
def execReArm (mv : Nat) (s : State) : Host.Outcome State Fault Refusal := event (supplyMoves mv) s

/-- TRIP (R106). -/
def execTrip (s : State) : Host.Outcome State Fault Refusal :=
  if 0 < s.monitor.tripsHanded then event takeTrip s else noEvent s

/-- HOLDOFF_EXPIRY (R107). -/
def execHoldoffExpiry (s : State) : Host.Outcome State Fault Refusal :=
  if s.governor.state = .holdoff 0 then event endHoldoff s else noEvent s

/-- TRIP_LEVEL_CHANGE (R105). -/
def execTripLevelChange (s : State) : Host.Outcome State Fault Refusal :=
  match s.monitor.levelsHanded with
  | level :: rest => event (takeLevel level rest) s
  | [] => noEvent s

end Sys2Proof.Machine
end

