-- ==== Sys2Proof/Machine/Plug.lean ====
section
/-! DEFINITION. Plug sense and the Plug Identity Reader (chapter 4): PLUG_SENSE_CHANGE,
PLUG_DEBOUNCE_EXPIRY, READER_JOIN, READER_WITHDRAWAL, TRY_END, PLUG_READ_RETRY_EXPIRY, IDENTITY_RESULT. -/

set_option Elab.async false

namespace Sys2Proof.Machine

/-- The device address of an identity memory, 0x52, as its seven bits cross the bus, the most significant first
(R71; log entry 44). -/
def identityDevice : Table Bool 7 := ⟨(List.range 7).map (0x52 : BitVec 7).getMsbD, by simp⟩

/-- The offset 0x00 as its bits cross the bus (R71). -/
def identityOffset : LaneBits := laneBits 0

/-- The acts that begin a try: select, start condition, device address with the write direction (R71). -/
def tryBeginActs (p : PortNo) : List WireAct := [.idSelect p, .idStart, .idAddress identityDevice false]

/-- The acts that end a try, by how it ended: a missing acknowledge is followed by a stop at once (R71). -/
def tryEndActs (r : TryResult) : List WireAct :=
  let toRead : List WireAct := [.idOffset identityOffset, .idStart, .idAddress identityDevice true]
  let body : List WireAct :=
    match r with
    | .noAck .writeAddress => []
    | .noAck .offset => [.idOffset identityOffset]
    | .noAck .readAddress => toRead
    | .record _ => toRead ++ List.replicate 7 (.idReadByte true) ++ [.idReadByte false]
  body ++ [.idStop, .idRelease]

/-- A new read of the head of the queue begins, or the reader becomes IDLE (R70). -/
def startNextRead (s : State) : State :=
  match s.reader.queue with
  | [] => s.setReader { s.reader with state := .idle }
  | p :: _ =>
    (s.setReader { s.reader with state := .reading { port := p, tryNo := 1, bytes := [] } }).emit
      (tryBeginActs p)

/-- The read that ends belongs to an earlier identification (R76): its port is IDENTIFYING again, and the
withdrawal of its removal still waits to be taken. -/
def Port.readIsPast (x : Port) : Bool :=
  decide (x.state = .identifying) && x.toReader.contains .withdrawal

/-- The read ends with a result (R74): the port leaves the head of the queue, the result is handed to it,
and the next read starts. A result of an earlier read cannot reach the port's next identification (R76), so
it is not handed there (log entry 15). -/
def deliverResult (p : PortNo) (r : IdResult) (s : State) : State :=
  let s := s.modPort p fun x =>
    { x with idResults := if x.readIsPast then x.idResults else x.idResults ++ [r] }
  startNextRead (s.setReader { s.reader with queue := s.reader.queue.tail })

/-- A try has ended (R72). The bits of each byte are assembled the most significant first (R71). -/
def endTry (r : ReadInProgress) (t : TryResult) (s : State) : State :=
  let s := s.emit (tryEndActs t)
  match t with
  | .record bytes =>
    deliverResult r.port (match validateRecord (bytes.map laneData) with | some c => .valid c | none => .plugBad) s
  | .noAck _ =>
    if r.tryNo = 1 then s.setReader { s.reader with state := .retryWait r Config.plugRetryMs }
    else deliverResult r.port .plugNoack s

/-- The join of port `p` may be taken: no join handed in an earlier event is still on its way, so ports join in the
order of the events that took them into IDENTIFYING (R69, R78; log entry 43). -/
def State.joinsNext (s : State) (p : PortNo) : Bool :=
  allPorts.all fun q => !(s.port q).joining || decide ((s.port p).joinTicket ≤ (s.port q).joinTicket)

/-- The debounced insertion of port `p` may be taken: none that waits at another port expired in an earlier tick, so
ports are served in the order in which their debounces expire; those that expire in one tick have no defined order
(R69; log entry 43). -/
def State.insertsNext (s : State) (p : PortNo) : Bool :=
  allPorts.all fun q => !(s.port q).insertDue || decide ((s.port q).insertWait ≤ (s.port p).insertWait)

/-- The reader takes a join: the port joins the tail, and an IDLE reader starts its read (R70). -/
def takeJoin (p : PortNo) (s : State) : State :=
  let s := s.modPort p fun x => { x with toReader := x.toReader.tail, joinTicket := 0 }
  let s := s.setReader { s.reader with queue := s.reader.queue ++ [p] }
  if s.reader.state = .idle then startNextRead s else s

/-- The reader takes a withdrawal (R76): the port leaves the queue; a read of it is abandoned, with a stop
condition if its try is on the bus, and the next read starts. -/
def takeReaderWithdrawal (p : PortNo) (s : State) : State :=
  let s := s.modPort p fun x => { x with toReader := x.toReader.tail }
  let s := s.setReader { s.reader with queue := s.reader.queue.erase p }
  match s.reader.state with
  | .idle => s
  | .reading r => if r.port = p then startNextRead (s.emit [.idStop, .idRelease]) else s
  | .retryWait r _ => if r.port = p then startNextRead s else s

/-- PLUG_SENSE_CHANGE: a change of the input's level sets the debounce anew (R67). -/
def execPlugSenseChange (p : PortNo) (seated : Bool) (s : State) : Host.Outcome State Fault Refusal :=
  if seated ≠ (s.port p).plugLevel then
    portEvent p (fun s => s.modPort p fun x =>
      { x with plugLevel := seated, plugDebounce := some Config.plugDebounceMs }) s
  else noEvent s

/-- The end of the plug debounce: the level now is compared with plugged (R67). -/
def plugDebounced (p : PortNo) (s : State) : State :=
  let s := s.modPort p fun x => { x with plugDebounce := none }
  let x := s.port p
  if x.plugLevel ∧ x.plugged = false then insertPlug p s
  else if x.plugLevel = false ∧ x.plugged then removePlug p s
  else s

/-- PLUG_DEBOUNCE_EXPIRY (R67); an insertion, in the order of R69. -/
def execPlugDebounceExpiry (p : PortNo) (s : State) : Host.Outcome State Fault Refusal :=
  if (s.port p).plugDebounce = some 0 ∧ ((s.port p).insertDue → s.insertsNext p) then
    portEvent p (plugDebounced p) s
  else noEvent s

/-- READER_JOIN (R69, R70). -/
def execReaderJoin (p : PortNo) (s : State) : Host.Outcome State Fault Refusal :=
  if (s.port p).toReader.head? = some .join ∧ s.joinsNext p then event (takeJoin p) s else noEvent s

/-- READER_WITHDRAWAL (R76). -/
def execReaderWithdrawal (p : PortNo) (s : State) : Host.Outcome State Fault Refusal :=
  if (s.port p).toReader.head? = some .withdrawal then event (takeReaderWithdrawal p) s else noEvent s

/-- TRY_END (R72): a try is on the bus only in READING. -/
def execTryEnd (t : TryResult) (s : State) : Host.Outcome State Fault Refusal :=
  match s.reader.state with
  | .reading r => event (endTry r t) s
  | _ => noEvent s

/-- The second try begins (R72). -/
def secondTry (r : ReadInProgress) (s : State) : State :=
  (s.setReader { s.reader with state := .reading { r with tryNo := 2, bytes := [] } }).emit
    (tryBeginActs r.port)

/-- PLUG_READ_RETRY_EXPIRY (R72). -/
def execPlugReadRetryExpiry (s : State) : Host.Outcome State Fault Refusal :=
  match s.reader.state with
  | .retryWait r 0 => event (secondTry r) s
  | _ => noEvent s

/-- IDENTITY_RESULT (R74). -/
def execIdentityResult (p : PortNo) (s : State) : Host.Outcome State Fault Refusal :=
  match (s.port p).idResults with
  | r :: rest =>
    portEvent p
      (fun s => takeIdResult p r (s.modPort p fun x => { x with idResults := rest })) s
  | [] => noEvent s

end Sys2Proof.Machine
end

