-- ==== Sys2Proof/Machine/Tether.lean ====
section
/-! DEFINITION. The events of a tether lane (chapter 3): ACK_WAIT_EXPIRY, RETRY_GAP_EXPIRY,
SYMBOL_ACKNOWLEDGED, PART_PHRASE_END_OK, CAMERA_START_MARK, CAMERA_SYMBOL_RECEIVED, RECEIVE_LIMIT,
CAMERA_PHRASE_DISCARDED, HELLO, SETTLED, AWAKE, PARTING; and PROFILE_REPLACEMENT (chapter 5). -/

set_option Elab.async false

namespace Sys2Proof.Machine

/-! ## The part's phrases -/

/-- An attempt fails (R51): end mark at once; with attempts left the retry gap, else the phrase ends
FAILED. -/
def attemptFails (p : PortNo) (ph : Phrase) (s : State) : State :=
  let s := s.emit [.laneEnd p]
  if ph.attempt < Config.maxAttempts then
    s.modPort p fun x => { x with lane := .gap ph Config.retryGapMs }
  else endPhrase p ph false s

/-- ACK_WAIT_EXPIRY (R51). -/
def execAckWaitExpiry (p : PortNo) (s : State) : Host.Outcome State Fault Refusal :=
  match (s.port p).lane with
  | .sending ph 0 => portEvent p (attemptFails p ph) s
  | _ => noEvent s

/-- RETRY_GAP_EXPIRY (R51): the next attempt sends the whole phrase again. -/
def execRetryGapExpiry (p : PortNo) (s : State) : Host.Outcome State Fault Refusal :=
  match (s.port p).lane with
  | .gap ph 0 => portEvent p (beginAttempt p { ph with attempt := ph.attempt + 1, next := 0 }) s
  | _ => noEvent s

/-- The next symbol of the attempt is sent, with its acknowledge wait (R47). -/
def sendNext (p : PortNo) (ph : Phrase) (s : State) : State :=
  let ph := { ph with next := ph.next + 1 }
  (s.modPort p fun x => { x with lane := .sending ph Config.ackWaitMs }).emit (symbolActs p ph.symbol)

/-- SYMBOL_ACKNOWLEDGED: a symbol other than the check symbol (R47). -/
def execSymbolAcknowledged (p : PortNo) (s : State) : Host.Outcome State Fault Refusal :=
  match (s.port p).lane with
  | .sending ph _ => if ph.atCheck then noEvent s else portEvent p (sendNext p ph) s
  | _ => noEvent s

/-- The check symbol is acknowledged: end mark, and the phrase ends OK (R50, R52). -/
def phraseEndsOk (p : PortNo) (ph : Phrase) (s : State) : State :=
  endPhrase p ph true (s.emit [.laneEnd p])

/-- PART_PHRASE_END_OK (R52). -/
def execPartPhraseEndOk (p : PortNo) (s : State) : Host.Outcome State Fault Refusal :=
  match (s.port p).lane with
  | .sending ph _ => if ph.atCheck then portEvent p (phraseEndsOk p ph) s else noEvent s
  | _ => noEvent s

/-! ## The camera's phrases -/

/-- A reception begins (R55). -/
def beginReception (p : PortNo) (s : State) : State :=
  s.modPort p fun x => { x with lane := .receiving { stored := [], count := 0, damaged := false } }

/-- CAMERA_START_MARK: only a FREE lane begins a reception (R54, R55, R63). -/
def execCameraStartMark (p : PortNo) (s : State) : Host.Outcome State Fault Refusal :=
  if (s.port p).lane = .free then portEvent p (beginReception p) s else noEvent s

/-- A symbol is clocked in (R55). -/
def clockIn (p : PortNo) (rx : RxBuffer) (data : LaneBits) (parity : Bool) (s : State) : State :=
  if rx.damaged = false ∧ parityGood data parity then
    (s.modPort p fun x =>
      { x with
        lane :=
          .receiving { rx with stored := rx.stored ++ [laneData data], count := rx.count + 1 } }).emit
      [.laneAck p]
  else
    (s.modPort p fun x =>
      { x with lane := .receiving { rx with count := rx.count + 1, damaged := true } }).emit
      [.laneWithhold p]

/-- CAMERA_SYMBOL_RECEIVED (R55); after six symbols the clock is stopped (log entry 26). -/
def execCameraSymbolReceived (p : PortNo) (data : LaneBits) (parity : Bool) (s : State) :
    Host.Outcome State Fault Refusal :=
  match (s.port p).lane with
  | .receiving rx =>
    if rx.count < Config.receiveLimit then portEvent p (clockIn p rx data parity) s else noEvent s
  | _ => noEvent s

/-- A reception is discarded: the lane becomes FREE, and the event is a grant point (R55, R56). -/
def discardReception (p : PortNo) (s : State) : State :=
  grantPoint p (s.modPort p fun x => { x with lane := .free })

/-- RECEIVE_LIMIT (R55). -/
def execReceiveLimit (p : PortNo) (s : State) : Host.Outcome State Fault Refusal :=
  match (s.port p).lane with
  | .receiving rx =>
    if rx.count < Config.receiveLimit then noEvent s else portEvent p (discardReception p) s
  | _ => noEvent s

/-- What the engine hears at the camera's end mark: nothing outside a reception short of the receive limit,
a discard, or a valid phrase (R56). -/
inductive Heard
  | nothing
  | discard
  | phrase (ph : CameraPhrase)
deriving DecidableEq, Repr

/-- The judgement of the reception in progress (R55, R56). -/
def Port.heard (x : Port) : Heard :=
  match x.lane with
  | .receiving rx =>
    if rx.count < Config.receiveLimit then
      match judgePhrase rx with
      | some ph => .phrase ph
      | none => .discard
    else .nothing
  | _ => .nothing

/-- CAMERA_PHRASE_DISCARDED (R56). -/
def execCameraPhraseDiscarded (p : PortNo) (s : State) : Host.Outcome State Fault Refusal :=
  if (s.port p).heard = .discard then portEvent p (discardReception p) s else noEvent s

/-- HELLO (R22, R31, R58). -/
def execHello (p : PortNo) (s : State) : Host.Outcome State Fault Refusal :=
  match (s.port p).heard with
  | .phrase (.hello c f) => portEvent p (endReception p (takeHello p c f)) s
  | _ => noEvent s

/-- SETTLED (R25). -/
def execSettled (p : PortNo) (s : State) : Host.Outcome State Fault Refusal :=
  if (s.port p).heard = .phrase .settled then portEvent p (endReception p (takeSettled p)) s
  else noEvent s

/-- AWAKE (R27). -/
def execAwake (p : PortNo) (s : State) : Host.Outcome State Fault Refusal :=
  if (s.port p).heard = .phrase .awake then portEvent p (endReception p (takeAwake p)) s
  else noEvent s

/-- PARTING (R28, R30). -/
def execParting (p : PortNo) (s : State) : Host.Outcome State Fault Refusal :=
  if (s.port p).heard = .phrase .parting then portEvent p (endReception p (takeParting p)) s
  else noEvent s

/-! ## Profiles -/

/-- PROFILE_REPLACEMENT: port `p` takes the oldest replacement handed to it (R85). -/
def execProfileReplacement (p : PortNo) (s : State) : Host.Outcome State Fault Refusal :=
  match (s.port p).replacements with
  | list :: rest =>
    portEvent p
      (fun s => takeReplacement p list (s.modPort p fun x => { x with replacements := rest })) s
  | [] => noEvent s

end Sys2Proof.Machine
end

