-- ==== Sys2Proof/Machine/Timers.lean ====
section
/-! DEFINITION. The port deadlines and the cadence (chapters 1 and 2): SETTLE_EXPIRY, WAKE_PULSE_END,
BOOT_LIMIT_EXPIRY, HOLD_LIMIT_EXPIRY, RESUME_LIMIT_EXPIRY, STOP_LIMIT_EXPIRY, TICK, BEAT_BOUNDARY,
KEEPALIVE_BOUNDARY, POLLING. -/

set_option Elab.async false

namespace Sys2Proof.Machine

/-! ## Port deadlines -/

/-- The port is in a state whose timer has expired (R4, R38). -/
def timerDue (p : PortNo) (st : PState) (s : State) : Bool :=
  (s.port p).state == st && (s.port p).timer == some 0

/-- The rail has settled (R21): wake pulse, boot-limit timer, BOOTING, the lane opens. -/
def settleDone (p : PortNo) (s : State) : State :=
  let s := setTimer p (some (s.port p).bootMs) (enterState p .booting s)
  grantPoint p (s.modPort p fun x => { x with wakePulse := some Config.wakePulseMs, lane := .free })

/-- The boot limit has expired (R22). -/
def bootLimitDone (p : PortNo) (s : State) : State :=
  let s := s.modPort p fun x => { x with bootAttempts := x.bootAttempts + 1 }
  if (s.port p).bootAttempts < Config.maxBootOrTrip then
    queueUp p (giveUpHoldings p (cutRail p .bootRetry s))
  else fault p .boot s

/-- STOP_LIMIT has expired (R28). -/
def stopLimitDone (p : PortNo) (s : State) : State := enterOff p (cutRail p .stopLimit s)

/-- SETTLE_EXPIRY (R21). -/
def execSettleExpiry (p : PortNo) (s : State) : Host.Outcome State Fault Refusal :=
  if timerDue p .powering s then portEvent p (settleDone p) s else noEvent s

/-- WAKE_PULSE_END (R21): the wake line returns to idle. -/
def execWakePulseEnd (p : PortNo) (s : State) : Host.Outcome State Fault Refusal :=
  if (s.port p).wakePulse = some 0 then
    portEvent p (fun s => s.modPort p fun x => { x with wakePulse := none }) s
  else noEvent s

/-- BOOT_LIMIT_EXPIRY (R22). -/
def execBootLimitExpiry (p : PortNo) (s : State) : Host.Outcome State Fault Refusal :=
  if timerDue p .booting s then portEvent p (bootLimitDone p) s else noEvent s

/-- HOLD_LIMIT_EXPIRY (R25). -/
def execHoldLimitExpiry (p : PortNo) (s : State) : Host.Outcome State Fault Refusal :=
  if timerDue p .pausing s then portEvent p (fault p .hold) s else noEvent s

/-- RESUME_LIMIT_EXPIRY (R27). -/
def execResumeLimitExpiry (p : PortNo) (s : State) : Host.Outcome State Fault Refusal :=
  if timerDue p .resuming s then portEvent p (fault p .resume) s else noEvent s

/-- STOP_LIMIT_EXPIRY (R28). -/
def execStopLimitExpiry (p : PortNo) (s : State) : Host.Outcome State Fault Refusal :=
  if timerDue p .stopping s then portEvent p (stopLimitDone p) s else noEvent s

/-! ## The tick and the beat -/

/-- A deadline one tick on; an expired one stays expired until it is taken or cancelled (R38). -/
def countDown (d : Deadline) : Deadline := d.map (· - 1)

/-- The lane's deadline one tick on: the acknowledge wait or the retry gap. -/
def Lane.countDown : Lane → Lane
  | .sending ph n => .sending ph (n - 1)
  | .gap ph n => .gap ph (n - 1)
  | l => l

/-- A port's deadlines one tick on. A debounced insertion that was due before the tick has waited one tick more (R69;
log entry 43); one that the tick makes due has waited none. -/
def Port.countDown (x : Port) : Port :=
  { x with
    insertWait := if x.insertDue then x.insertWait + 1 else 0
    timer := Machine.countDown x.timer
    wakePulse := Machine.countDown x.wakePulse
    plugDebounce := Machine.countDown x.plugDebounce
    lane := x.lane.countDown }

/-- The reader's deadline one tick on. -/
def ReaderState.countDown : ReaderState → ReaderState
  | .retryWait r n => .retryWait r (n - 1)
  | x => x

/-- The holdoff deadline one tick on. -/
def GovState.countDown : GovState → GovState
  | .opened => .opened
  | .holdoff n => .holdoff (n - 1)

/-- Every deadline of Table 2-1 counted down by one (R38). -/
def countAll (s : State) : State :=
  { s with
    ports := s.ports.map Port.countDown
    reader := { s.reader with state := s.reader.state.countDown }
    governor :=
      { s.governor with
        history := s.governor.history.map (· - 1), state := s.governor.state.countDown }
    lines := s.lines.map fun l => { l with debounce := countDown l.debounce } }

/-- A sweep that takes beat boundaries owes a step for this one (R160). -/
def Sweep.owe (x : Sweep) : Sweep := if 1 ≤ x.stagger then { x with stepsOwed := x.stepsOwed + 1 } else x

/-- A beat boundary (R39): phase 0, the counter advances, a pending length is applied, and the boundary is
delivered to the ports, the walker and the running sweeps. -/
def takeBeat (s : State) : State :=
  let c := s.cadence
  let b := c.beat + 1
  { s with
    cadence :=
      { tickPhase := 0, beat := b, beatMs := c.pendingBeatMs.getD c.beatMs, pendingBeatMs := none }
    ports := s.ports.map fun x => { x with boundaries := x.boundaries ++ [b] }
    walker := { s.walker with boundaries := s.walker.boundaries + 1 }
    pool := s.pool.map fun o => o.map Sweep.owe }

/-- The tick phase has reached BEAT_MS (R39). -/
def Cadence.boundaryDue (c : Cadence) : Bool := c.beatMs ≤ c.tickPhase

/-- The millisecond tick (R37): a boundary of the tick before that has not been taken is taken first, every
deadline is counted down, and the phase advances by one (log entry 7). -/
def takeTick (s : State) : State :=
  let s := if s.cadence.boundaryDue then takeBeat s else s
  let s := countAll s
  { s with cadence := { s.cadence with tickPhase := s.cadence.tickPhase + 1 } }

/-- TICK (R37). -/
def execTick (s : State) : Host.Outcome State Fault Refusal := event takeTick s

/-- BEAT_BOUNDARY (R39). -/
def execBeatBoundary (s : State) : Host.Outcome State Fault Refusal :=
  if s.cadence.boundaryDue then event takeBeat s else noEvent s

/-- Whether a beat is a keepalive boundary of port `p` with keepalive period `period`: (b + p) modulo P is
0, the sum not wrapping (R41). -/
def isKeepalive (p : PortNo) (b : Word) (period : Nat) : Bool := (b.toNat + p.val) % period == 0

/-- The keepalive boundary of an alive port (R42). -/
def keepaliveDue (p : PortNo) (c : ClassRecord) (s : State) : State :=
  if (s.port p).silence < c.lapseLimit.toNat then
    grantPoint p (s.modPort p fun x => { x with silence := x.silence + 1, keepDue := true })
  else lapse p s

/-- Port `p` takes a beat boundary (R41, R42). -/
def takeBoundary (p : PortNo) (b : Word) (rest : List Word) (s : State) : State :=
  let s := s.modPort p fun x => { x with boundaries := rest }
  match (s.port p).classRecord with
  | none => s
  | some c =>
    if (s.port p).state.isAlive ∧ isKeepalive p b c.keepalivePeriod.toNat then keepaliveDue p c s else s

/-- KEEPALIVE_BOUNDARY: port `p` takes the oldest boundary delivered to it (R41, R42). -/
def execKeepaliveBoundary (p : PortNo) (s : State) : Host.Outcome State Fault Refusal :=
  match (s.port p).boundaries with
  | b :: rest => portEvent p (takeBoundary p b rest) s
  | [] => noEvent s

/-- The walker takes a boundary (R43). -/
def takePoll (s : State) : State :=
  pollWalker (s.setWalker { s.walker with boundaries := s.walker.boundaries - 1 })

/-- POLLING (R43). -/
def execPolling (s : State) : Host.Outcome State Fault Refusal :=
  if 0 < s.walker.boundaries then event takePoll s else noEvent s

end Sys2Proof.Machine
end

