-- ==== Sys2Proof/Machine/Window.lean ====
section
/-! DEFINITION. The resets and the register window (chapter 10): POWER_ON_RESET, LINK_RESET, RIG_RESET,
ATTACH, DETACH, POLL, CLEAR_POWER_ON, CLEAR_RIG, CLEAR_LINK, NUDGE, BOARD_LO, BOARD_HI, ATTN, ATTN_MASK,
REGISTER_WRITE. -/

set_option Elab.async false

namespace Sys2Proof.Machine

/-! ## Resets -/

/-- A port after power-on or rig reset: its pin keeps its level, and its plug debounce runs (R35, R78). -/
def Port.afterReset (x : Port) : Port := { Port.reset with plugLevel := x.plugLevel }

/-- A line after power-on or rig reset: the level is the raw level at the end of the reset (R171). -/
def Line.afterReset (l : Line) : Line := { Line.reset with raw := l.raw, level := l.raw }

/-- The part after power-on or rig reset, with its registers: every block at its reset state, the pins as they
are, and the supply compared with the default level (R35, R44, R65, R78, R92, R110, R129, R154, R170, R171,
R181). A write in progress ends without a landing, though R129 leaves open whether it reaches host memory
(log entry 37). -/
def resetPart (regs : Registers) (s : State) : State :=
  compareSupply
    { State.reset with
      pending := s.pending
      acts := s.acts
      ports := s.ports.map Port.afterReset
      lines := s.lines.map Line.afterReset
      monitor := { State.reset.monitor with supply := s.monitor.supply }
      regs := regs }

/-- The registers after power-on reset (R187). -/
def powerOnRegs : Registers := State.reset.regs

/-- The registers after rig reset: the RIG cause is set and the other causes are kept (R187). -/
def rigResetRegs (r : Registers) : Registers :=
  { powerOnRegs with powerOn := r.powerOn, rig := true, link := r.link }

/-- The registers after link reset: the LINK cause is set and the other causes are kept (R187). -/
def linkResetRegs (r : Registers) : Registers :=
  { powerOnRegs with powerOn := r.powerOn, rig := r.rig, link := true }

/-- A rig reset, in the write event (R183): a try on the identity bus is stopped with no stop condition, both
bus wires and the select released (R78); lane exchanges are stopped without an end mark (R65). -/
def rigReset (s : State) : State :=
  let acts : List WireAct :=
    match s.reader.state with
    | .reading _ => [.idBusRelease, .idRelease]
    | _ => []
  resetPart (rigResetRegs s.regs) (s.emit acts)

/-- The sweep came from a request (R172). -/
def Sweep.fromRequest (x : Sweep) : Bool :=
  match x.origin with
  | .request _ => true
  | .line _ => false

/-- The sweeps of requests in the records of a list are cancelled, their records freed and their groups'
active sweep counts lowered (R172). -/
def cancelRequestSweeps : List SweepNo → State → State
  | [], s => s
  | r :: rest, s =>
    cancelRequestSweeps rest
      (match s.sweep r with
        | some x => if x.fromRequest then freeSweep r x s else s
        | none => s)

/-- The walker after a link reset (R130): DETACHED, with no anchor, copy, access or flag, and the counts 0. -/
def Walker.afterLinkReset (w : Walker) : Walker :=
  { w with
    state := .detached, anchor := .absent, takenCount := 0, finishedCount := 0, copy := none
    lookAgain := false, accesses := [], current := none }

/-- A link reset (R36, R130, R153, R172, R181, R187). A write in progress ends without a landing (log entries
18 and 37). -/
def linkReset (s : State) : State :=
  let s := cancelRequestSweeps allSweeps s
  { s with
    ports := s.ports.map fun x => { x with waiters := [] }
    walker := s.walker.afterLinkReset
    inflight := Table.replicate 8 none
    writer := { s.writer with posting := [], current := none }
    regs := linkResetRegs s.regs }

/-- POWER_ON_RESET (R35). -/
def execPowerOnReset (s : State) : Host.Outcome State Fault Refusal := event (resetPart powerOnRegs) s

/-- LINK_RESET (R130). -/
def execLinkReset (s : State) : Host.Outcome State Fault Refusal := event linkReset s

/-! ## CONTROL (R183) -/

/-- The fields of a CONTROL write without RIG_RESET: POLL is stored, the causes written 1 are cleared, and one
of ATTACH and DETACH alone is handed to the walker (R183). -/
def controlFields (w : Word) (s : State) : State :=
  let r := s.regs
  let s := s.setRegs
    { r with
      poll := w.getLsbD 2
      powerOn := r.powerOn && !w.getLsbD 8
      rig := r.rig && !w.getLsbD 9
      link := r.link && !w.getLsbD 10 }
  match w.getLsbD 0, w.getLsbD 1 with
  | true, false => attachWalker s
  | false, true => detachWalker s
  | _, _ => s

/-- A write to CONTROL (R183): with RIG_RESET at 1 nothing else of the write is acted on. -/
def writeControl (w : Word) (s : State) : State :=
  if w.getLsbD 3 then rigReset s else controlFields w s

/-- ATTACH: a CONTROL write of the value with ATTACH at 1 (R115, R116, R183). -/
def execAttach (w : Word) (s : State) : Host.Outcome State Fault Refusal :=
  event (writeControl (w ||| 0x001)) s

/-- DETACH: a CONTROL write of the value with DETACH at 1 (R124, R183). -/
def execDetach (w : Word) (s : State) : Host.Outcome State Fault Refusal :=
  event (writeControl (w ||| 0x002)) s

/-- POLL: a CONTROL write of the value with RIG_RESET at 0 (R183). -/
def execPoll (w : Word) (s : State) : Host.Outcome State Fault Refusal :=
  event (writeControl (w &&& 0xFFFFFFF7)) s

/-- RIG_RESET: a CONTROL write of the value with RIG_RESET at 1 (R183). -/
def execRigReset (w : Word) (s : State) : Host.Outcome State Fault Refusal :=
  event (writeControl (w ||| 0x008)) s

/-- CLEAR_POWER_ON: a CONTROL write of the value with POWER_ON at 1 (R183). -/
def execClearPowerOn (w : Word) (s : State) : Host.Outcome State Fault Refusal :=
  event (writeControl (w ||| 0x100)) s

/-- CLEAR_RIG: a CONTROL write of the value with RIG at 1 (R183). -/
def execClearRig (w : Word) (s : State) : Host.Outcome State Fault Refusal :=
  event (writeControl (w ||| 0x200)) s

/-- CLEAR_LINK: a CONTROL write of the value with LINK at 1 (R183). -/
def execClearLink (w : Word) (s : State) : Host.Outcome State Fault Refusal :=
  event (writeControl (w ||| 0x400)) s

/-! ## The other registers -/

/-- BOARD_LO and BOARD_HI are written in DETACHED and HALTED alone (R184). -/
def WalkerState.boardWritable : WalkerState → Bool
  | .detached | .halted _ => true
  | _ => false

/-- A write to BOARD_LO (R184). -/
def writeBoardLo (w : Word) (s : State) : State :=
  if s.walker.state.boardWritable then s.setRegs { s.regs with boardLo := w } else s

/-- A write to BOARD_HI (R184). -/
def writeBoardHi (w : Word) (s : State) : State :=
  if s.walker.state.boardWritable then s.setRegs { s.regs with boardHi := w } else s

/-- A write to ATTN clears each bit written 1 (R185). -/
def writeAttn (w : Word) (s : State) : State :=
  s.setRegs { s.regs with attn := s.regs.attn &&& ~~~w }

/-- A write to ATTN_MASK stores the seven mask bits (R186, R182). -/
def writeAttnMask (w : Word) (s : State) : State := s.setRegs { s.regs with attnMask := w &&& causeBits }

/-- NUDGE: a write of any value and any size (R184). -/
def execNudge (_z : AccessSize) (_w : Word) (s : State) : Host.Outcome State Fault Refusal :=
  event nudgeWalker s

/-- BOARD_LO (R184). -/
def execBoardLo (w : Word) (s : State) : Host.Outcome State Fault Refusal := event (writeBoardLo w) s

/-- BOARD_HI (R184). -/
def execBoardHi (w : Word) (s : State) : Host.Outcome State Fault Refusal := event (writeBoardHi w) s

/-- ATTN (R185). -/
def execAttn (w : Word) (s : State) : Host.Outcome State Fault Refusal := event (writeAttn w) s

/-- ATTN_MASK (R186). -/
def execAttnMask (w : Word) (s : State) : Host.Outcome State Fault Refusal := event (writeAttnMask w) s

/-- A write to the register window is ignored: to IDENT or offset 0x1C, or narrower than 32 bits outside
NUDGE (R182). -/
def writeIgnored (r : Reg) (z : AccessSize) : Bool :=
  match r, z with
  | .nudge, _ => false
  | .ident, _ => true
  | .unused, _ => true
  | _, .word => false
  | _, _ => true

/-- The effect of a write that is not ignored, by register (Table 10-12). -/
def writeWindow (r : Reg) (w : Word) (s : State) : State :=
  match r with
  | .ident => s
  | .control => writeControl w s
  | .attn => writeAttn w s
  | .attnMask => writeAttnMask w s
  | .nudge => nudgeWalker s
  | .boardLo => writeBoardLo w s
  | .boardHi => writeBoardHi w s
  | .unused => s

/-- REGISTER_WRITE at an offset of the window (R182): an ignored write changes nothing; any other is the write
of the register there (log entry 11). -/
def execRegisterWrite (offset : BitVec 5) (z : AccessSize) (w : Word) (s : State) :
    Host.Outcome State Fault Refusal :=
  if writeIgnored (windowReg offset) z then noEvent s else event (writeWindow (windowReg offset) w) s

end Sys2Proof.Machine
end

