-- ==== Sys2Proof/Machine/Dispatch.lean ====
section
/-! DEFINITION. The effect of every command: one arm per row of the table, each one call of its meaning. -/

namespace Sys2Proof.Machine

/-- The effect of a command on everything but the queue. -/
def exec (i : Instr) (s : State) : Host.Outcome State Fault Refusal :=
  match i with
  | .powerOnReset => Sys2Proof.Machine.execPowerOnReset s
  | .linkReset => Sys2Proof.Machine.execLinkReset s
  | .attach written => Sys2Proof.Machine.execAttach written s
  | .detach written => Sys2Proof.Machine.execDetach written s
  | .poll written => Sys2Proof.Machine.execPoll written s
  | .rigReset written => Sys2Proof.Machine.execRigReset written s
  | .clearPowerOn written => Sys2Proof.Machine.execClearPowerOn written s
  | .clearRig written => Sys2Proof.Machine.execClearRig written s
  | .clearLink written => Sys2Proof.Machine.execClearLink written s
  | .nudge size written => Sys2Proof.Machine.execNudge size written s
  | .boardLo written => Sys2Proof.Machine.execBoardLo written s
  | .boardHi written => Sys2Proof.Machine.execBoardHi written s
  | .attn written => Sys2Proof.Machine.execAttn written s
  | .attnMask written => Sys2Proof.Machine.execAttnMask written s
  | .registerWrite offset size written => Sys2Proof.Machine.execRegisterWrite offset size written s
  | .beatBoundary => Sys2Proof.Machine.execBeatBoundary s
  | .keepaliveBoundary port => Sys2Proof.Machine.execKeepaliveBoundary port s
  | .polling => Sys2Proof.Machine.execPolling s
  | .sweepStep sweep => Sys2Proof.Machine.execSweepStep sweep s
  | .settleExpiry port => Sys2Proof.Machine.execSettleExpiry port s
  | .wakePulseEnd port => Sys2Proof.Machine.execWakePulseEnd port s
  | .bootLimitExpiry port => Sys2Proof.Machine.execBootLimitExpiry port s
  | .holdLimitExpiry port => Sys2Proof.Machine.execHoldLimitExpiry port s
  | .resumeLimitExpiry port => Sys2Proof.Machine.execResumeLimitExpiry port s
  | .stopLimitExpiry port => Sys2Proof.Machine.execStopLimitExpiry port s
  | .ackWaitExpiry port => Sys2Proof.Machine.execAckWaitExpiry port s
  | .retryGapExpiry port => Sys2Proof.Machine.execRetryGapExpiry port s
  | .partPhraseEndOk port => Sys2Proof.Machine.execPartPhraseEndOk port s
  | .hello port => Sys2Proof.Machine.execHello port s
  | .settled port => Sys2Proof.Machine.execSettled port s
  | .awake port => Sys2Proof.Machine.execAwake port s
  | .parting port => Sys2Proof.Machine.execParting port s
  | .cameraPhraseDiscarded port => Sys2Proof.Machine.execCameraPhraseDiscarded port s
  | .receiveLimit port => Sys2Proof.Machine.execReceiveLimit port s
  | .plugSenseChange port seated => Sys2Proof.Machine.execPlugSenseChange port seated s
  | .plugDebounceExpiry port => Sys2Proof.Machine.execPlugDebounceExpiry port s
  | .readerJoin port => Sys2Proof.Machine.execReaderJoin port s
  | .readerWithdrawal port => Sys2Proof.Machine.execReaderWithdrawal port s
  | .tryEnd result => Sys2Proof.Machine.execTryEnd result s
  | .plugReadRetryExpiry => Sys2Proof.Machine.execPlugReadRetryExpiry s
  | .identityResult port => Sys2Proof.Machine.execIdentityResult port s
  | .claim port => Sys2Proof.Machine.execClaim port s
  | .withdrawal port => Sys2Proof.Machine.execWithdrawal port s
  | .release port => Sys2Proof.Machine.execRelease port s
  | .returnedGrant port => Sys2Proof.Machine.execReturnedGrant port s
  | .grant port => Sys2Proof.Machine.execGrant port s
  | .grantHistoryExpiry place => Sys2Proof.Machine.execGrantHistoryExpiry place s
  | .supplyTrip millivolts => Sys2Proof.Machine.execSupplyTrip millivolts s
  | .reArm millivolts => Sys2Proof.Machine.execReArm millivolts s
  | .trip => Sys2Proof.Machine.execTrip s
  | .tripCut port => Sys2Proof.Machine.execTripCut port s
  | .holdoffExpiry => Sys2Proof.Machine.execHoldoffExpiry s
  | .tripLevelChange => Sys2Proof.Machine.execTripLevelChange s
  | .headerReadComplete data => Sys2Proof.Machine.execHeaderReadComplete data s
  | .linkReadComplete link => Sys2Proof.Machine.execLinkReadComplete link s
  | .blockReadComplete data => Sys2Proof.Machine.execBlockReadComplete data s
  | .profileListReadComplete data => Sys2Proof.Machine.execProfileListReadComplete data s
  | .profileReplacement port => Sys2Proof.Machine.execProfileReplacement port s
  | .blockWriteComplete => Sys2Proof.Machine.execBlockWriteComplete s
  | .headerWriteComplete => Sys2Proof.Machine.execHeaderWriteComplete s
  | .accessFailure agent => Sys2Proof.Machine.execAccessFailure agent s
  | .slotWriteComplete => Sys2Proof.Machine.execSlotWriteComplete s
  | .inputLineChange line high => Sys2Proof.Machine.execInputLineChange line high s
  | .inputDebounceExpiry line => Sys2Proof.Machine.execInputDebounceExpiry line s
  | .tick => Sys2Proof.Machine.execTick s
  | .symbolAcknowledged port => Sys2Proof.Machine.execSymbolAcknowledged port s
  | .cameraStartMark port => Sys2Proof.Machine.execCameraStartMark port s
  | .cameraSymbolReceived port data parity => Sys2Proof.Machine.execCameraSymbolReceived port data parity s

end Sys2Proof.Machine
end

