-- ==== Sys2Proof/Safety.lean ====
section
/-! DEFINITION. What is claimed of the part: invariants of one state, as Bool so that they can be evaluated,
and the words the statements are made of: what an event leaves alone, what an outcome does to an entry, what a
serving check does to the governor. -/

set_option Elab.async false

namespace Sys2Proof.Machine

/-! ## Invariants -/

/-- The state has a timer that always runs in it (Table 1-2a: from entry). -/
def PState.alwaysTimed : PState → Bool
  | .powering | .booting | .stopping => true
  | _ => false

/-- The state may have a running timer (Table 1-2a). -/
def PState.mayTime : PState → Bool
  | .powering | .booting | .pausing | .resuming | .stopping => true
  | _ => false

/-- The port is in a state whose target is always OFF (R9). -/
def PState.targetIsOff : PState → Bool
  | .empty | .identifying | .off | .faulted _ => true
  | _ => false

/-- A port holds no class record in this state (R18): absent, or faulted before its record was read. -/
def PState.noRecord : PState → Bool
  | .empty | .identifying | .faulted .plugNoack | .faulted .plugBad => true
  | _ => false

/-- A rail, a lane, a wake pulse, a timer and the counts of silence are where the state allows them (R1, R2,
R4, R54, R62). -/
def Port.wiresSound (x : Port) : Bool :=
  ((x.lane == .closed) == !x.state.laneOpen) && (x.state.railOn || x.wakePulse.isNone) &&
    (x.state.mayTime || x.timer.isNone) && (!x.state.alwaysTimed || x.timer.isSome) &&
    (x.state.isAlive || (x.silence == 0 && !x.keepDue && !x.stepClaim))

/-- Plugged, the class record, the target and the end reason agree with the state (R9, R18, R68, R176), a port
whose target is always OFF has no waiters (R11, R14), and the cut mark is clear between events (R12). -/
def Port.recordSound (x : Port) : Bool :=
  (x.plugged == (x.state != .empty)) && (x.classRecord.isNone == x.state.noRecord) &&
    (!x.state.targetIsOff || (x.target == .off && x.waiters.isEmpty)) && !x.cut &&
    (match x.state with | .faulted r => x.endReason == .fault r | _ => true)

/-- The counts lie in the ranges of Table 1-1: three boot-limit expiries or supply-trip cuts are behind a port
only where it is faulted with its class record, fewer anywhere else (R22, R34), the recovery count is at most 2
(R32), and silence never exceeds the lapse limit (R2). -/
def Port.countsSound (x : Port) : Bool :=
  (if x.state.isFaulted && !x.state.noRecord then decide (x.bootAttempts ≤ 3) && decide (x.tripCount ≤ 3)
    else decide (x.bootAttempts ≤ 2) && decide (x.tripCount ≤ 2)) &&
    decide (x.recovery ≤ 2) && decide (x.silence ≤ x.classRecord.elim 0 (·.lapseLimit.toNat))

/-- The cursor and the restart mark are clear outside TUNING (R84); in TUNING the mark stands only while a SET is
in flight (R87), and without it the cursor names an entry of the profile (R82). -/
def Port.tuningSound (x : Port) : Bool :=
  if x.state = .tuning then
    if x.restart then x.lane.carries .set else decide (x.cursor < x.profile.length)
  else x.cursor == 0 && !x.restart

/-- The states a phrase of the part is in flight in (Table 1-3a; a KEEP, in any alive state). -/
def PhraseName.sentIn : PhraseName → PState → Bool
  | .keep, st => st.isAlive
  | .halt, st => st.isAlive
  | .set, st => st == .tuning
  | .hold, st => st == .ready || st == .resuming
  | .release, st => st == .pausing || st == .paused

/-- The last attempt that a lane state may hold: the third is not followed by a gap (R51). -/
def Lane.lastAttempt : Lane → Nat
  | .gap _ _ => 2
  | _ => 3

/-- A phrase in flight is one the state sends (Table 1-3a), at attempt 1 to 3, with a symbol left to be
acknowledged (R50, R51). -/
def Port.phraseSound (x : Port) : Bool :=
  x.lane.phrase?.all fun ph =>
    ph.name.sentIn x.state && decide (1 ≤ ph.attempt) && decide (ph.attempt ≤ x.lane.lastAttempt) &&
      decide (ph.next < ph.symbols.length)

/-- The invariant of one port. -/
def Port.sound (x : Port) : Bool :=
  x.wiresSound && x.recordSound && x.countsSound && x.tuningSound && x.phraseSound

/-- The invariant of the sixteen ports. -/
def State.portsSound (s : State) : Bool := s.ports.items.all Port.sound

/-- The rig settings lie in the ranges of Table 6-1. -/
def RigSettings.sound (r : RigSettings) : Bool :=
  Machine.inRange 1 4 (some r.grantLimit) && Machine.inRange 20 1000 (some r.windowMs) &&
    Machine.inRange 1 8 (some r.bootCap) && Machine.inRange 100 5000 (some r.holdoffMs) &&
    Machine.inRange 90 115 (some r.tripLevel)

/-- The governor keeps its two limits (R98, R99): slots held never exceed BOOT_CAP, and the History holds at
most four entries, none with more than the longest window left. -/
def Governor.sound (g : Governor) : Bool :=
  g.settings.sound && decide (g.slotsHeld ≤ g.settings.bootCap) && decide (g.history.length ≤ 4) &&
    g.history.all (fun d => decide (d ≤ 1000)) &&
    (match g.state with | .opened => true | .holdoff d => decide (d ≤ 5000))

/-- The monitor's levels lie in the range of TRIP_LEVEL (R105). -/
def Monitor.sound (m : Monitor) : Bool :=
  Machine.inRange 90 115 (some m.tripLevel) && m.levelsHanded.all fun l => Machine.inRange 90 115 (some l)

/-- The beat length and a pending one lie in 10 to 1000, and the phase has not passed BEAT_MS (R39, R40). -/
def Cadence.sound (c : Cadence) : Bool :=
  Machine.inRange 10 1000 (some c.beatMs) && Machine.inRange 10 1000 c.pendingBeatMs &&
    decide (c.tickPhase ≤ c.beatMs)

/-- The invariant of the governor, the monitor and the cadence. -/
def State.rigSound (s : State) : Bool := s.governor.sound && s.monitor.sound && s.cadence.sound

/-! ### The Reader Queue and the Grant Queue -/

/-- The reader and its queue (R69, R70): no port stands twice, the reader is IDLE exactly with an empty queue,
and the read in progress is that of the head, a retry wait after its first try. -/
def Reader.sound (r : Reader) : Bool :=
  decide r.queue.Nodup &&
    (match r.state with
      | .idle => r.queue.isEmpty
      | .reading x => r.queue.head? == some x.port && (x.tryNo == 1 || x.tryNo == 2)
      | .retryWait x _ => r.queue.head? == some x.port && x.tryNo == 1)

/-- Port `p` and the Reader Queue (R69, R74 to R76). At most a withdrawal and then a join are on their way to
the reader. The queue holds `p` while it is IDENTIFYING and its join has been taken, or, after its removal, as
the port being read until its withdrawal is taken. An identification under way is exactly one of a join on its
way, a place in the queue, a result to be taken; in another state than EMPTY and IDENTIFYING nothing of one is
left. -/
def State.readerPortSound (s : State) (p : PortNo) : Bool :=
  let x := s.port p
  let joining := x.joining
  let leaving := x.toReader.contains .withdrawal
  let queued := decide (p ∈ s.reader.queue)
  let results := x.idResults.length
  x.toReader == (if leaving then [.withdrawal] else []) ++ (if joining then [.join] else []) &&
    (!queued ||
      (if leaving then s.reader.state.serves p else x.state == .identifying && !joining)) &&
    decide (results + queued.toNat ≤ 1) &&
    (match x.state with
      | .identifying => if joining then results == 0 else !leaving && (queued || results == 1)
      | .empty => !joining
      | _ => !joining && !leaving && results == 0)

/-- Whether a port has a claim in the queue and whether it holds a slot, after the governor has taken a message
of the port and served no claim (R96 to R98, R102). -/
def GovMsg.taken (holds : Bool × Bool) : GovMsg → Bool × Bool
  | .claim => (holds.1 || !holds.2, holds.2)
  | .withdrawal => (false, holds.2)
  | .release | .returnedGrant => (holds.1, false)

/-- Port `p` and the governor (R95, R96, R98). A port in the Grant Queue holds no slot. The slot of a slot holder
is one of a grant not yet taken, a warming port, a release or returned grant not yet taken. Once its messages
are taken a claim stands for the port exactly if it is QUEUED with no grant on its way. -/
def State.grantPortSound (s : State) (p : PortNo) : Bool :=
  let x := s.port p
  let queued := decide (p ∈ s.governor.queue)
  let holder := s.governor.holders.get p
  let grants := x.fromGovernor.count .grant
  let returns := x.toGovernor.count .release + x.toGovernor.count .returnedGrant
  !(queued && holder) && grants + x.state.isWarming.toNat + returns == holder.toNat &&
    (x.toGovernor.foldl GovMsg.taken (queued, holder)).1 == (x.state == .queued && grants == 0)

/-- The invariant of the Reader Queue and the Grant Queue: neither holds a port twice (R69, R96), and each agrees
with the sixteen ports and the messages on their way. -/
def State.queuesSound (s : State) : Bool :=
  s.reader.sound && decide s.governor.queue.Nodup &&
    allPorts.all fun p => s.readerPortSound p && s.grantPortSound p

/-! ### Groups, sweeps and requests -/

/-- How many Sweep Pool records name a group. -/
def State.sweepsOf (s : State) (g : GroupNo) : Nat :=
  s.pool.items.countP fun o => o.any fun x => x.group == g

/-- A group record: its active sweep count is the number of records that name it (R157), and a definition has 1
to 16 distinct members and a lead among them (R155). -/
def State.groupSound (s : State) (g : GroupNo) : Bool :=
  (s.group g).active == s.sweepsOf g &&
    (match (s.group g).defn with
      | none => (s.group g).active == 0
      | some d =>
        decide (1 ≤ d.members.length) && decide (d.members.length ≤ 16) &&
          decide (d.lead < d.members.length) && decide d.members.Nodup)

/-- A running sweep (Table 9-2): it has members left to visit, its cursor names a place of its group's list,
and it waits for a beat. -/
def State.sweepSound (s : State) (x : Sweep) : Bool :=
  decide (1 ≤ x.remaining) && decide (x.remaining ≤ (s.members x.group).length) &&
    decide (x.cursor < (s.members x.group).length) && decide (1 ≤ x.beatsUntil) &&
    decide (x.beatsUntil ≤ x.stagger)

/-- The invariant of the Group Table and the Sweep Pool. -/
def State.poolSound (s : State) : Bool :=
  ([0, 1, 2, 3, 4, 5, 6, 7] : List GroupNo).all s.groupSound &&
    allSweeps.all fun r => (s.sweep r).all s.sweepSound

/-- The members a running sweep has still to visit, in visiting order (R160). -/
def State.unvisited (s : State) (x : Sweep) : List PortNo :=
  let ms := s.members x.group
  ((ms.drop x.cursor ++ ms.take x.cursor)).take x.remaining

/-- Entry `e` is occupied and OPEN, with port `p` pending. -/
def State.pendsOn (s : State) (e : EntryNo) (p : PortNo) : Bool :=
  match s.entry e with
  | some x => x.status == .opened && x.pending.get p
  | none => false

/-- A sweep of a request has port `p` still to visit for entry `e`. -/
def State.sweepOwes (s : State) (e : EntryNo) (p : PortNo) : Bool :=
  allSweeps.any fun r =>
    (s.sweep r).any fun x => x.origin == .request e && decide (p ∈ s.unvisited x)

/-- Port `p` and entry `e` agree (R13): the port is pending in the entry exactly when its waiter list names the
entry, once, or a sweep of the request has the port still to visit; not both. -/
def State.waitSound (s : State) (e : EntryNo) (p : PortNo) : Bool :=
  decide ((s.port p).waiters.count e ≤ 1) && !(decide (e ∈ (s.port p).waiters) && s.sweepOwes e p) &&
    (s.pendsOn e p == (decide (e ∈ (s.port p).waiters) || s.sweepOwes e p))

/-- The DONE or REFUSED writes of entry `e`, due or in progress. -/
def State.finalWrites (s : State) (e : EntryNo) : Nat :=
  ((s.walker.current.map (·.access)).toList ++ s.walker.accesses).countP fun a =>
    match a with
    | .blockWrite w => w.entry == some e && w.form != .taken
    | _ => false

/-- An entry (R144, R146): while OPEN some port is pending and no write finishes it; while HELD none is
pending and exactly one does; free, none does. -/
def State.entrySound (s : State) (e : EntryNo) : Bool :=
  match s.entry e with
  | none => s.finalWrites e == 0
  | some x =>
    match x.status with
    | .opened => x.pending.items.any id && s.finalWrites e == 0
    | .held => x.pending.items.all (!·) && s.finalWrites e == 1

/-- The entries' numbers in the sweeps of requests, each at most once. -/
def State.sweepEntries (s : State) : List EntryNo :=
  allSweeps.filterMap fun r =>
    match s.sweep r with
    | some x => x.origin.ref
    | none => none

/-- The invariant of requests in flight: the Group Table and the Sweep Pool, the agreement of R13 for every
entry and port, every entry's status, and no two sweeps of one request. -/
def State.requestsSound (s : State) : Bool :=
  s.poolSound && decide s.sweepEntries.Nodup &&
    allEntries.all fun e => s.entrySound e && allPorts.all fun p => s.waitSound e p

/-- The posting list names each slot at most once (section 10.5). -/
def State.postingSound (s : State) : Bool := decide s.writer.posting.Nodup

/-- The reads that the walker may have to make in a state (sections 7.3 to 7.8). -/
def WalkerState.mayRead (st : WalkerState) (a : Access) : Bool :=
  match a with
  | .headerRead _ => (match st with | .detached | .halted _ => true | _ => false)
  | .linkRead => (match st with | .watching | .fetching | .detaching => true | _ => false)
  | .blockRead _ | .listRead _ _ => (match st with | .fetching | .detaching => true | _ => false)
  | .blockWrite _ | .headerWrite => true

/-- The accesses still to be made, the one in progress first; one that was in progress at an entry to HALTED no
longer counts (R127). -/
def Walker.due (w : Walker) : List Access :=
  (match w.current with
    | some b => if b.atHalt then [] else [b.access]
    | none => []) ++ w.accesses

/-- The walker (R117, R114): at most one read is due, of a kind its state makes; the anchor is absent in
DETACHED and present while attached; a status page address is held wherever an anchor is. -/
def Walker.sound (w : Walker) : Bool :=
  decide ((w.due.countP Access.isRead) ≤ 1) && w.due.all w.state.mayRead &&
    (match w.state with
      | .detached => w.anchor == .absent
      | .halted _ => true
      | _ => w.anchor != .absent) &&
    (w.anchor == .absent || w.board.isSome)

/-- The invariant of the walker. -/
def State.walkerSound (s : State) : Bool := s.walker.sound

/-- Nothing that an event should have begun is left waiting (R117, R125, R178, R180): no access that may begin
while none is in progress, no slot write while the writer is idle, no detach with nothing left, no posting
while the writer is silent. -/
def State.settled (s : State) : Bool :=
  (match s.walker.current, s.walker.accesses with
    | none, a :: _ => !s.walker.mayBegin a
    | _, _ => true) &&
    (if s.walker.state.attached then
        s.writer.current.isSome || s.writer.posting.isEmpty || s.walker.board.isNone
      else s.writer.posting.isEmpty && s.writer.current.all (·.orphan)) &&
    !(s.walker.state == .detaching && s.inflight.items.all (·.isNone) && s.walker.accesses.isEmpty &&
      s.walker.current.isNone)

/-! ## What an event leaves alone -/

/-- The registers but ATTN are unchanged. -/
def RegsKeptButAttn (s t : State) : Prop := t.regs = { s.regs with attn := t.regs.attn }

/-- No cause is set or cleared and no other register changes. -/
def RegsKept (s t : State) : Prop := t.regs = s.regs

/-- Exactly these causes are set besides those that were set before; no other register changes. -/
def CausesSet (bits : Word) (s t : State) : Prop := t.regs = { s.regs with attn := s.regs.attn ||| bits }

/-- Every port but `p` is unchanged. -/
def OtherPortsKept (p : PortNo) (s t : State) : Prop := ∀ q, q ≠ p → t.port q = s.port q

/-- No port changes. -/
def PortsKept (s t : State) : Prop := t.ports = s.ports

/-- The cadence and the studio lines are unchanged. -/
def ClockAndLinesKept (s t : State) : Prop := t.cadence = s.cadence ∧ t.lines = s.lines

/-- The group table, the sweep pool and the bindings are unchanged. -/
def GroupsKept (s t : State) : Prop :=
  t.groups = s.groups ∧ t.pool = s.pool ∧ t.bindings = s.bindings

/-- The governor and the monitor are unchanged. -/
def SupplyKept (s t : State) : Prop := t.governor = s.governor ∧ t.monitor = s.monitor

/-- The blocks that no event at a port reaches except by a message: cadence, lines, groups, governor,
monitor; and the queue. -/
def RigKept (s t : State) : Prop :=
  t.pending = s.pending ∧ ClockAndLinesKept s t ∧ GroupsKept s t ∧ SupplyKept s t

/-- The walker and the In-flight Table are unchanged. -/
def BoardKept (s t : State) : Prop := t.walker = s.walker ∧ t.inflight = s.inflight

/-- The walker is unchanged but for its list of accesses and the one in progress. -/
def WalkerKeptButAccesses (s t : State) : Prop :=
  t.walker = { s.walker with accesses := t.walker.accesses, current := t.walker.current }

/-- The serial of a slot. -/
def Writer.serialOf (w : Writer) : Slot → Nat
  | .port p => (w.portSerial.get p).toNat
  | .line n => (w.lineSerial.get n).toNat
  | .governor => w.govSerial.toNat

/-- No slot but `x` is posted, begun or dropped. -/
def OtherSlotsKept (x : Slot) (s t : State) : Prop :=
  ∀ y, y ≠ x → ((y ∈ t.writer.posting ↔ y ∈ s.writer.posting) ∧ t.writer.serialOf y = s.writer.serialOf y)

/-- The slot waits for its write, or its write has begun in this event with the serial one higher (R178). -/
def SlotPosted (x : Slot) (s t : State) : Prop :=
  x ∈ t.writer.posting ∨
    (s.writer.current = none ∧ t.writer.current.map (·.slot) = some x ∧
      t.writer.serialOf x = (match x with
        | .line _ => (s.writer.serialOf x + 1) % 2 ^ 8
        | _ => (s.writer.serialOf x + 1) % 2 ^ 16))

/-- The slot is posted while the Status Writer writes (R180). -/
def PostedWhileAttached (x : Slot) (s t : State) : Prop :=
  t.walker.state.attached = true → t.walker.board.isSome = true → SlotPosted x s t

/-- An event of port `p` alone that gives no outcome: nothing changes outside port `p`'s record, its slot,
ATTN and the wires. -/
def OnlyPort (p : PortNo) (s t : State) : Prop :=
  RigKept s t ∧ t.reader = s.reader ∧ t.stampCounter = s.stampCounter ∧ BoardKept s t ∧
    OtherPortsKept p s t ∧ RegsKeptButAttn s t ∧ OtherSlotsKept (.port p) s t

/-- An event of port `p` that may give outcomes: as `OnlyPort`, but entries of the In-flight Table and the
walker's access list may change. -/
def PortAndOutcomes (p : PortNo) (s t : State) : Prop :=
  RigKept s t ∧ t.reader = s.reader ∧ t.stampCounter = s.stampCounter ∧ WalkerKeptButAccesses s t ∧
    OtherPortsKept p s t ∧ RegsKeptButAttn s t ∧ OtherSlotsKept (.port p) s t

/-- The port's cable, identity and pins are unchanged. -/
def Port.cableKept (x y : Port) : Prop :=
  y.plugged = x.plugged ∧ y.classRecord = x.classRecord ∧ y.firmware = x.firmware ∧
    y.plugLevel = x.plugLevel ∧ y.plugDebounce = x.plugDebounce ∧ y.insertWait = x.insertWait

/-- The port's profile and its messages from other blocks and to the reader are unchanged. -/
def Port.mailKept (x y : Port) : Prop :=
  y.profile = x.profile ∧ y.fromGovernor = x.fromGovernor ∧ y.toReader = x.toReader ∧
    y.joinTicket = x.joinTicket ∧ y.idResults = x.idResults ∧ y.replacements = x.replacements ∧
    y.boundaries = x.boundaries

/-- Boot attempts, trip count and recovery count are unchanged. -/
def Port.countsKept (x y : Port) : Prop :=
  y.bootAttempts = x.bootAttempts ∧ y.tripCount = x.tripCount ∧ y.recovery = x.recovery

/-- Target, stamp and waiter list are unchanged. -/
def Port.intentKept (x y : Port) : Prop :=
  y.target = x.target ∧ y.stamp = x.stamp ∧ y.waiters = x.waiters

/-- What no state holds whose rail is off (R1, R2, R4, R53, R84): the lane is closed, the pulse, the timer, the
claim, silence, keepalive due, the cursor and the restart mark are clear. -/
def Port.railDown (y : Port) : Prop :=
  y.lane = .closed ∧ y.wakePulse = none ∧ y.timer = none ∧ y.stepClaim = false ∧ y.silence = 0 ∧
    y.keepDue = false ∧ y.cursor = 0 ∧ y.restart = false

/-! ## Outcomes (R145, R146) -/

/-- What an outcome does to an entry that waits for it: the byte is filled, the port leaves the pending set,
and an entry that was OPEN with no other port pending turns HELD. -/
def Entry.given (x : Entry) (p : PortNo) (o : OutcomeCode) : Entry :=
  let pending := x.pending.set p false
  { x with
    outcomes := x.outcomes.set p o
    pending := pending
    status := if x.status = .opened ∧ pending.items.all (!·) then .held else x.status }

/-- Every waiter of port `p` in `s` has received the outcome in `t`, and no other entry has changed. -/
def WaitersReceive (p : PortNo) (o : OutcomeCode) (s t : State) : Prop :=
  ∀ e, t.entry e = if e ∈ (s.port p).waiters then (s.entry e).map (·.given p o) else s.entry e

/-! ## Entering OFF, QUEUED and FAULTED -/

/-- Port `p` has entered FAULTED with this reason (R7): rail down, target OFF with the stamp kept, the reason
as end reason, waiters answered, PORT_CHANGE and PORT_FAULT set. -/
def FaultEntered (p : PortNo) (r : FaultReason) (s t : State) : Prop :=
  (t.port p).state = .faulted r ∧ (t.port p).endReason = .fault r ∧ (t.port p).target = .off ∧
    (t.port p).stamp = (s.port p).stamp ∧ (t.port p).waiters = [] ∧ (t.port p).railDown ∧
    (t.port p).stateBeat = s.cadence.beat ∧ WaitersReceive p (.fault r) s t ∧ CausesSet 0x06 s t

/-- Port `p` has entered OFF with target OFF, which is reached there (R14, R19): rail down, the three counts 0,
the end reason given, every waiter answered REACHED, PORT_CHANGE set. -/
def OffEntered (p : PortNo) (why : EndReason) (s t : State) : Prop :=
  (t.port p).state = .off ∧ (t.port p).endReason = why ∧ (t.port p).target = .off ∧
    (t.port p).waiters = [] ∧ (t.port p).railDown ∧ (t.port p).bootAttempts = 0 ∧
    (t.port p).tripCount = 0 ∧ (t.port p).recovery = 0 ∧ (t.port p).stateBeat = s.cadence.beat ∧
    WaitersReceive p .reached s t ∧ CausesSet 0x02 s t

/-- Port `p` has entered QUEUED and handed its claim as the last of these messages (R3): rail down, the end
reason given, target, stamp and waiters kept, no outcome given, PORT_CHANGE set. -/
def QueuedEntered (p : PortNo) (why : EndReason) (handed : List GovMsg) (s t : State) : Prop :=
  (t.port p).state = .queued ∧ (t.port p).endReason = why ∧ (s.port p).intentKept (t.port p) ∧
    (t.port p).railDown ∧ (t.port p).toGovernor = (s.port p).toGovernor ++ handed ∧
    (t.port p).stateBeat = s.cadence.beat ∧ t.inflight = s.inflight ∧ CausesSet 0x02 s t

/-! ## The lane -/

/-- What a grant point makes of a FREE lane (R61): a KEEP if one is due, else the step phrase claimed, else
FREE; an attempt waits ACK_WAIT for its first symbol. -/
def Port.laneAtGrant (x : Port) : Lane :=
  if x.keepDue then .sending (newPhrase .keep []) 2
  else
    match x.stepClaim, x.chooseStep with
    | true, some ph => .sending ph 2
    | _, _ => .free

/-- What a SET carries of an entry (R82): slot, value high byte, value low byte. -/
def ProfileEntry.payload (e : ProfileEntry) : List Byte :=
  [e.slot, e.value.extractLsb' 8 8, e.value.extractLsb' 0 8]

/-- The lane of a port in TUNING that sends this entry next, or HALT with target OFF (R82). -/
def Port.tuningLane (x : Port) (e : ProfileEntry) : Lane :=
  .sending (if x.target = .off then newPhrase .halt [] else newPhrase .set e.payload) 2

/-- The port as it enters TUNING, or enters it anew, at a free lane with no keepalive due (R81): it begins with
this entry, the first of its profile. -/
def Port.nowTuning (x : Port) (beat : Word) (e : ProfileEntry) : Port :=
  { x with
    state := .tuning, stateBeat := if x.state = .tuning then x.stateBeat else beat, timer := none
    stale := true, cursor := 0, restart := false, silence := 0, keepDue := false, stepClaim := false
    lane := x.tuningLane e }

/-- The port as it enters READY tuned, at a free lane with no keepalive due (R14, R24, R83): target AWAKE is
reached, PAUSED sends HOLD, OFF sends HALT. -/
def Port.nowReady (x : Port) (beat : Word) : Port :=
  { x with
    state := .ready, stateBeat := beat, timer := none, stale := false, cursor := 0, restart := false
    silence := 0, keepDue := false, stepClaim := false
    waiters := if x.target = .awake then [] else x.waiters
    recovery := if x.target = .awake then 0 else x.recovery
    lane := match x.target with
      | .awake => .free
      | .paused => .sending (newPhrase .hold []) 2
      | .off => .sending (newPhrase .halt []) 2 }

/-- Port `p` has entered READY in this way: its waiters have received REACHED if its target is AWAKE, and no
entry has changed if it is not. -/
def ReadyEntered (p : PortNo) (x : Port) (s t : State) : Prop :=
  CausesSet 0x02 s t ∧ t.port p = x.nowReady s.cadence.beat ∧
    (if x.target = .awake then WaitersReceive p .reached s t else t.inflight = s.inflight)

/-! ## Serving (R100, R101) -/

/-- An event of the governor: the ports change only by messages, and nothing else changes outside the governor
and its slot. -/
def GovernorEvent (s t : State) : Prop :=
  t.pending = s.pending ∧ ClockAndLinesKept s t ∧ GroupsKept s t ∧ t.monitor = s.monitor ∧
    t.reader = s.reader ∧ t.stampCounter = s.stampCounter ∧ BoardKept s t ∧ RegsKept s t ∧
    OtherSlotsKept .governor s t ∧
    ∀ q, t.port q =
      { s.port q with toGovernor := (t.port q).toGovernor, fromGovernor := (t.port q).fromGovernor }

/-- The governor after its first `n` claims have been served, one by one (R100). -/
def Governor.afterServing (g : Governor) (n : Nat) : Governor :=
  { g with
    queue := g.queue.drop n
    holders := (g.queue.take n).foldl (fun h p => h.set p true) g.holders
    history := g.history ++ List.replicate (min n g.queue.length) g.settings.windowMs }

/-- A serving check has taken the governor `g` to that of `t`, serving exactly `n` claims (R101): each was served
while the three conditions held, and then the queue is empty or a condition fails. Each port served is
handed one grant. -/
def Served (g : Governor) (n : Nat) (s t : State) : Prop :=
  n ≤ g.queue.length ∧ t.governor = g.afterServing n ∧
    (∀ m, m < n → (g.afterServing m).canServe = true) ∧
    (n = g.queue.length ∨ (g.afterServing n).canServe = false) ∧
    ∀ q, (t.port q).fromGovernor =
      (s.port q).fromGovernor ++ List.replicate ((g.queue.take n).count q) PortMsg.grant

/-! ## The walker's accesses (R117) -/

/-- The walker is `w`, with these accesses due, the first of them in progress with the values of this moment
(R117). -/
def WalkerNow (w : Walker) (due : List Access) (t : State) : Prop :=
  t.walker = { w with accesses := due.tail, current := due.head?.map fun a => busAccess a t }

/-- The read `b` in progress asks for `a`, and was not in progress at an entry to HALTED (R127). -/
def State.reading (s : State) (b : BusAccess) (a : Access) : Prop :=
  s.walker.current = some b ∧ b.access = a ∧ b.atHalt = false

/-- A header change joins the access list (R117): a waiting header write with no block write behind it carries
it, else a header write joins the tail. -/
def withHeaderWrite (l : List Access) : List Access :=
  if headerWriteWaits l then l else l ++ [.headerWrite]

/-- Nothing changes outside the walker, the In-flight Table, the Status Writer and the registers. -/
def OnlyBoard (s t : State) : Prop :=
  RigKept s t ∧ PortsKept s t ∧ t.reader = s.reader ∧ t.stampCounter = s.stampCounter

/-- The walker has halted with this reason (R114, R126): reads have left the access list and writes stay, the
look-again flag is clear, the anchor and the counts are kept, CHAIN_HALT is set, the Status Writer is silent with
its serials kept, and a write in progress runs to its end without effect (R180). -/
def HaltedWith (r : HaltReason) (s t : State) : Prop :=
  t.walker =
      { s.walker with
        state := .halted r, lookAgain := false, copy := t.walker.copy, accesses := t.walker.accesses
        current := t.walker.current } ∧
    CausesSet 0x20 s t ∧
    t.writer =
      { s.writer with
        posting := [], current := s.writer.current.map fun w => { w with orphan := true } }

/-! ## Requests (R131 to R135) -/

/-- Byte `k` of a block as a number. -/
def numAt (b : Table Byte 64) (k : Nat) : Nat := (byteAt b k).toNat

/-- A flag of a block by its bit (section 10.2). -/
def flagAt (b : Table Byte 64) (k : Nat) : Bool := (byteAt b 10).getLsbD k

/-- BAD_FLAGS (Table 8-2, R133), by kind code. -/
def flagsBad (b : Table Byte 64) : Bool :=
  decide (8 ≤ numAt b 10) || (flagAt b 0 && numAt b 9 != 4) || (flagAt b 1 && decide (5 ≤ numAt b 9)) ||
    (numAt b 18 != 0 && !flagAt b 1)

/-- BAD_TARGET (Table 8-2, R133), by kind code. -/
def targetBad (b : Table Byte 64) (s : State) : Bool :=
  let target := fieldAt b 16 2
  if 7 ≤ numAt b 9 then target != 0
  else if flagAt b 1 then decide (8 ≤ target) || (s.group (Fin.ofNat 8 target)).defn.isNone
  else target == 0

/-- A SET_RIG setting is not given, or its field lies in its range (Table 8-3, R175). -/
def settingGood (b : Table Byte 64) (bit off size lo hi : Nat) : Bool :=
  !(byteAt b 20).getLsbD bit || (decide (lo ≤ fieldAt b off size) && decide (fieldAt b off size ≤ hi))

/-- The parameters of the three configuration kinds pass Table 8-3, by kind code. -/
def paramsGood (b : Table Byte 64) : Bool :=
  match numAt b 9 with
  | 7 =>
    decide (numAt b 20 < 8) && decide (numAt b 21 ≤ 16) &&
      (if numAt b 21 = 0 then numAt b 22 == 0 else decide (numAt b 22 < numAt b 21)) &&
      (List.range (numAt b 21)).all (fun i =>
        decide (numAt b (23 + i) < 16) &&
          (List.range i).all fun j => numAt b (23 + i) != numAt b (23 + j))
  | 8 =>
    decide (numAt b 20 < 8) &&
      (numAt b 21 == 2 ||
        (numAt b 21 == 1 && decide (numAt b 22 < 8) && decide (1 ≤ numAt b 23) &&
          decide (numAt b 23 ≤ 4) && decide (1 ≤ numAt b 24) && decide (numAt b 24 ≤ 3)))
  | 9 =>
    settingGood b 0 21 1 1 4 && settingGood b 1 24 2 20 1000 && settingGood b 2 22 1 1 8 &&
      settingGood b 3 26 2 100 5000 && settingGood b 4 23 1 90 115 && settingGood b 5 28 2 10 1000
  | _ => true

/-- The entry count and list address of a SET_PROFILE fail before the list is read (R90). -/
def listBad (b : Table Byte 64) : Bool :=
  decide (12 < numAt b 28) ||
    (decide (1 ≤ numAt b 28) && (fieldAt b 20 8 == 0 || fieldAt b 20 8 % 4 != 0))

/-- A group has an active sweep (R135). -/
def sweeping (s : State) (g : Nat) : Bool := decide (0 < (s.group (Fin.ofNat 8 g)).active)

/-- GROUP_BUSY (R135), by kind code and mode. -/
def concernBusy (b : Table Byte 64) (s : State) : Bool :=
  if numAt b 9 = 7 then sweeping s (numAt b 20)
  else if numAt b 21 = 1 then sweeping s (numAt b 22)
  else (s.binding (Fin.ofNat 8 (numAt b 20))).any fun x => sweeping s x.group.val

/-- The first check of Table 8-2 that a POSTED block fails as its read completes, none when it passes them
all; the slots of a profile list are judged when the list has been read (R90). -/
def refusalOf (b : Table Byte 64) (s : State) : Option RefusalReason :=
  let kind := numAt b 9
  if kind = 0 ∨ 9 < kind then some .badKind
  else if flagsBad b then some .badFlags
  else if targetBad b s then some .badTarget
  else if 7 ≤ kind ∧ paramsGood b = false then some .badParam
  else if kind = 6 ∧ listBad b = true then some .badProfile
  else if (kind = 7 ∨ kind = 8) ∧ concernBusy b s = true then some .groupBusy
  else if kind = 9 ∧ (s.governor.queue ≠ [] ∨ 0 < s.governor.slotsHeld) then some .rigBusy
  else none

/-- The block write of a take (R113, R121). -/
def takeWrite (c : FetchedCopy) (form : BlockForm) : Access :=
  .blockWrite
    { address := c.address, form := form, notify := (byteAt c.data 10).getLsbD 2, entry := none
      ofTake := true }

/-- A take of `c` has been made whole (R121): the anchor is the block, the taken count is one higher, the walker is
FETCHING, and the block write has joined the list, then a header write, then a link read. Accesses that
the take's own effects placed stand `before` and `behind` the block write. -/
def Took (c : FetchedCopy) (form : BlockForm) (before behind : List Access) (s t : State) : Prop :=
  WalkerNow
    { s.walker with
      state := .fetching, anchor := .block c.address, takenCount := s.walker.takenCount + 1
      copy := some c }
    (s.walker.accesses ++ before ++ [takeWrite c form] ++ behind ++ [.headerWrite, .linkRead]) t

/-- An access is the DONE write of an In-flight entry. -/
def Access.finishes : Access → Bool
  | .blockWrite w =>
    w.entry.isSome && !w.ofTake && (match w.form with | .done _ => true | _ => false)
  | _ => false

/-- The ports a port-target request names, in the order it hands its target sets (R139, R141). -/
def requestPorts (b : Table Byte 64) (s : State) : List PortNo :=
  if flagAt b 1 then
    (s.group (Fin.ofNat 8 (fieldAt b 16 2))).defn.elim [] GroupDef.visitingOrder
  else allPorts.filter fun p => (fieldAt b 16 2).testBit p.val

/-- The target set of a port-target kind, by kind code (Table 8-1). -/
def requestSet (b : Table Byte 64) : TargetSet :=
  match numAt b 9 with
  | 2 => { target := .paused, resume := false, cut := false }
  | 3 => { target := .awake, resume := true, cut := false }
  | 4 => { target := .off, resume := false, cut := flagAt b 0 }
  | _ => { target := .awake, resume := false, cut := false }

/-- The outcome byte of a port after a take: what it decided, NONE where it waits or is not named (R139). -/
def decidedAt (ps : List PortNo) (ts : TargetSet) (s : State) (p : PortNo) : OutcomeCode :=
  if p ∈ ps then (match answerTo (s.port p) ts with | .decided o => o | .waiting => .none) else .none

/-- A port named by a request as the take leaves it: it has taken its own target set, with the stamp that falls to
it after the ports before it, a port that declines drawing none (R10, R139). -/
def portAfterTake (ps : List PortNo) (ts : TargetSet) (ref : Option EntryNo) (s : State) (p : PortNo) :
    Port :=
  let before := (ps.takeWhile (· ≠ p)).countP fun q => (declines (s.port q) ts).isNone
  (targetSet p ts ref { s with stampCounter := s.stampCounter + BitVec.ofNat 32 before }).2.port p

/-- The target sets of a request have been handed to its ports in order: each named port has taken its own, no
other port has changed, and one stamp was drawn for each that did not decline. -/
def TargetsHanded (ps : List PortNo) (ts : TargetSet) (ref : Option EntryNo) (s t : State) : Prop :=
  (∀ p, t.port p = if p ∈ ps then portAfterTake ps ts ref s p else s.port p) ∧
    t.stampCounter =
      s.stampCounter + BitVec.ofNat 32 (ps.countP fun q => (declines (s.port q) ts).isNone)

/-! ## Sweeps (R158 to R161) -/

/-- A member is skipped by a sweep with this start stamp (R159), by the test of R10 (log entry 42). -/
def State.skips (s : State) (start : Word) (p : PortNo) : Bool := stampNewer (s.port p).stamp start

/-- The sweep `x` of record `r` over the group `d` has visited port `p` (R159 to R161): a skipped port is
unchanged and answers SUPERSEDED, any other takes the sweep's target set; a decided answer has reached the entry of
a request; the record is one place on and waits for its stagger, or is freed with its group's count lowered. -/
def SweepVisited (r : SweepNo) (x : Sweep) (d : GroupDef) (p : PortNo) (s t : State) : Prop :=
  let skip : Bool := s.skips x.startStamp p
  let answer : Answer := if skip then .decided .superseded else answerTo (s.port p) x.action
  OtherPortsKept p s t ∧
    t.port p = (if skip then s.port p else (targetSet p x.action x.origin.ref s).2.port p) ∧
    t.stampCounter =
      (if skip ∨ (declines (s.port p) x.action).isSome = true then s.stampCounter
        else s.stampCounter + 1) ∧
    (∀ e, x.origin = .request e → s.requestsSound = true →
      (answer = .waiting → t.entry e = s.entry e) ∧
        ∀ o, answer = .decided o → t.entry e = (s.entry e).map (·.given p o)) ∧
    (x.remaining = 1 →
      t.sweep r = none ∧
        t.group x.group = { s.group x.group with active := (s.group x.group).active - 1 }) ∧
    (1 < x.remaining →
      t.groups = s.groups ∧
        t.sweep r =
          some
            { x with
              remaining := x.remaining - 1, beatsUntil := x.stagger, stepsOwed := x.stepsOwed - 1
              cursor := if x.cursor + 1 < d.members.length then x.cursor + 1 else 0 }) ∧
    (∀ g, g ≠ x.group → t.group g = s.group g) ∧ (∀ q, q ≠ r → t.sweep q = s.sweep q) ∧
    t.pending = s.pending ∧ t.bindings = s.bindings ∧ SupplyKept s t ∧ ClockAndLinesKept s t ∧
    t.reader = s.reader ∧ RegsKeptButAttn s t

/-- The binding of line `n` and its level now make a matching edge (R167). -/
def State.edgeMatches (s : State) (n : LineNo) : Bool :=
  (s.binding n).any fun x =>
    match x.edge with
    | .rise => (s.line n).raw
    | .fall => !(s.line n).raw
    | .both => true

/-- A trigger sweep by this binding ends in the event that starts it: it visits every member at once, or has
one member (R160, R161). -/
def Binding.endsAtOnce (x : Binding) (d : GroupDef) : Bool := x.stagger == 0 || d.members.length == 1

/-- The debounced level of line `n` changes into a matching edge whose sweep starts and ends in the event. -/
def State.sweepEndsAt (s : State) (n : LineNo) : Bool :=
  s.edgeMatches n && (allSweeps.any fun r => (s.sweep r).isNone) &&
    (s.binding n).any fun x => (s.group x.group).defn.any x.endsAtOnce

/-- A debounced change of line `n` has been taken (R166, R167): level, count and STUDIO_INPUT, and by the edge
nothing more, NO_GROUP, NO_SWEEP, or STARTED with a sweep. A sweep that ends at once has handed its target set to
every member in the visiting order but those it skips; any other has visited the lead and waits for its
stagger. -/
def LineChanged (n : LineNo) (s t : State) : Prop :=
  let nothingMore : Prop :=
    PortsKept s t ∧ GroupsKept s t ∧ BoardKept s t ∧ t.stampCounter = s.stampCounter ∧ CausesSet 0x08 s t
  t.pending = s.pending ∧ t.cadence = s.cadence ∧ t.bindings = s.bindings ∧ SupplyKept s t ∧
    t.reader = s.reader ∧ RegsKeptButAttn s t ∧ t.regs.attn.getLsbD 3 = true ∧
    (∀ m, m ≠ n → t.line m = s.line m) ∧
    t.line n =
      { s.line n with
        level := (s.line n).raw, debounce := none, changes := (s.line n).changes + 1
        result := (t.line n).result } ∧
    (s.edgeMatches n = false → (t.line n).result = (s.line n).result ∧ nothingMore) ∧
    ∀ x, s.binding n = some x → s.edgeMatches n = true →
      ((s.group x.group).defn = none → (t.line n).result = .noGroup ∧ nothingMore) ∧
      ((s.group x.group).defn ≠ none → (∀ r, s.sweep r ≠ none) →
        (t.line n).result = .noSweep ∧ nothingMore) ∧
      ∀ d r p, (s.group x.group).defn = some d → s.sweep r = none → (∀ q, q < r → s.sweep q ≠ none) →
        d.members[d.lead]? = some p →
        (t.line n).result = .started ∧ (∀ q, q ≠ r → t.sweep q = s.sweep q) ∧
          (∀ g, g ≠ x.group → t.group g = s.group g) ∧
          (x.endsAtOnce d = true → d.members.Nodup →
            let visited := d.visitingOrder.filter fun q => !s.skips s.stampCounter q
            TargetsHanded visited x.action.targetSet none s t ∧ t.groups = s.groups ∧ t.pool = s.pool ∧
              ∀ e, (∀ q ∈ visited, e ∉ (s.port q).waiters) → t.entry e = s.entry e) ∧
          (x.endsAtOnce d = false →
            OtherPortsKept p s t ∧
              t.port p =
                (if s.skips s.stampCounter p then s.port p
                  else (targetSet p x.action.targetSet none s).2.port p) ∧
              t.group x.group = { s.group x.group with active := (s.group x.group).active + 1 } ∧
              t.sweep r =
                some
                  { group := x.group, action := x.action.targetSet, origin := .line n
                    startStamp := s.stampCounter
                    cursor := if d.lead + 1 < d.members.length then d.lead + 1 else 0
                    remaining := d.members.length - 1, stagger := x.stagger
                    beatsUntil := x.stagger, stepsOwed := 0 })

/-- A STALLED walker whose sweep lack may have ended makes its take again from the copy `c` it holds (R122, R161):
the event ends as the take of `c` on `u`, where the walker differs from `s` by accesses joined at the tail alone,
DONE writes of In-flight entries. That these stand before the take's own writes is log entry 39. -/
def TakenAgain (c : FetchedCopy) (o : Host.Outcome State Fault Refusal) (s u : State) : Prop :=
  (∃ joined, joined.all Access.finishes = true ∧
      u.walker = { s.walker with accesses := s.walker.accesses ++ joined }) ∧
    o = .next (settle (takeCopy c u))

/-! ## Clearing a fault (R8) -/

/-- A faulted port after CLEAR (R8): a plug fault is read again, with a join handed with this ticket, any other fault
goes to OFF; the end reason is kept. -/
def Port.cleared (x : Port) (beat : Word) (ticket : Nat) : Port :=
  let y : Port :=
    { x with
      stateBeat := beat, timer := none, silence := 0, keepDue := false, stepClaim := false, cursor := 0
      restart := false }
  match x.state with
  | .faulted .plugNoack | .faulted .plugBad =>
    { y with state := .identifying, toReader := x.toReader ++ [.join], joinTicket := ticket }
  | .faulted _ => { y with state := .off, bootAttempts := 0, tripCount := 0, recovery := 0 }
  | _ => x

/-! ## CONTROL (R183) -/

/-- The registers after a CONTROL write without RIG_RESET: POLL takes the written value, and the reset causes
written 1 are cleared. -/
def controlRegs (w : Word) (r : Registers) : Registers :=
  { r with
    poll := w.getLsbD 2, powerOn := r.powerOn && !w.getLsbD 8, rig := r.rig && !w.getLsbD 9
    link := r.link && !w.getLsbD 10 }

/-- Nothing changes but the registers. -/
def OnlyRegs (s t : State) : Prop :=
  OnlyBoard s t ∧ t.inflight = s.inflight ∧ t.walker = s.walker ∧ t.writer = s.writer

end Sys2Proof.Machine
end

