-- ==== Sys2Proof/WellFormed.lean ====
section
/-! DEFINITION. Which commands can be spelt on the part's wires at all. Port, line, sweep and History
numbers and the 64-byte and 8-byte reads are bounded by their types; what is left is checked here. -/

set_option Elab.async false

namespace Sys2Proof

/-- A value fits the width of the access that writes it (R182). -/
def AccessSize.fits (z : AccessSize) (v : Word) : Bool :=
  match z with
  | .byte => v.toNat < 256
  | .half => v.toNat < 65536
  | .word => true

/-- An access lies within one place of the register window: its offset is a multiple of its width. R182 speaks of
32 bits and of less only; this alignment, and the three widths, are the model's choice (log entry 40). -/
def AccessSize.aligned (z : AccessSize) (offset : BitVec 5) : Bool := offset.toNat % z.bytes == 0

/-- A profile list read brings 1 to 12 entries of 4 bytes (R90). -/
def listSizeOk (data : List Byte) : Bool :=
  data.length % 4 == 0 && 4 ≤ data.length && data.length ≤ 48

/-- The command can be sent to the part. -/
def WellFormed (i : Instr) : Bool :=
  match i with
  | .nudge size written => size.fits written
  | .registerWrite offset size written => size.aligned offset && size.fits written
  | .profileListReadComplete data => listSizeOk data
  | .powerOnReset | .linkReset | .attach _ | .detach _ | .poll _ | .rigReset _ | .clearPowerOn _
  | .clearRig _ | .clearLink _ | .boardLo _ | .boardHi _ | .attn _ | .attnMask _ | .beatBoundary
  | .keepaliveBoundary _ | .polling | .sweepStep _ | .settleExpiry _ | .wakePulseEnd _
  | .bootLimitExpiry _ | .holdLimitExpiry _ | .resumeLimitExpiry _ | .stopLimitExpiry _
  | .ackWaitExpiry _ | .retryGapExpiry _ | .partPhraseEndOk _ | .hello _ | .settled _ | .awake _
  | .parting _ | .cameraPhraseDiscarded _ | .receiveLimit _ | .plugSenseChange _ _
  | .plugDebounceExpiry _ | .readerJoin _ | .readerWithdrawal _ | .tryEnd _ | .plugReadRetryExpiry
  | .identityResult _ | .claim _ | .withdrawal _ | .release _ | .returnedGrant _ | .grant _
  | .grantHistoryExpiry _ | .supplyTrip _ | .reArm _ | .trip | .tripCut _ | .holdoffExpiry
  | .tripLevelChange | .headerReadComplete _ | .linkReadComplete _ | .blockReadComplete _
  | .profileReplacement _ | .blockWriteComplete | .headerWriteComplete | .accessFailure _
  | .slotWriteComplete | .inputLineChange _ _ | .inputDebounceExpiry _ | .tick
  | .symbolAcknowledged _ | .cameraStartMark _ | .cameraSymbolReceived _ _ _ => true

end Sys2Proof
end

