-- ==== Sys2Proof/Certificates/Slice0/Obligations.lean ====
section
/-! DEFINITION. The statements handed to the provers. -/

set_option Elab.async false

open Sys2Proof Sys2Proof.Machine

/-! ## Steps and commands -/

/-- A step takes the command at the front of the queue: it is the command's effect on the state with the
rest of the queue. On an empty queue the part idles (the model's choice, log entry 2). -/
def Obligations.StepTakesTheFrontCommand : Prop :=
  (∀ (c : Instr) (rest : List Instr) (s : State), s.pending = c :: rest →
       step s = exec c (s.withPending rest)) ∧
  (∀ s : State, s.pending = [] → step s = .next s)

/-- Every command answers a next state and leaves the rest of the queue as it is; what the part did on its
wires before has no part in what a command does (the model's own record, log entry 5). That a command answers
also where its event cannot occur, with nothing changed, is the model's choice (log entry 3). -/
def Obligations.CommandsAnswerAndReadNoWireRecord : Prop :=
  (∀ (c : Instr) (s : State), ∃ t, exec c s = .next t ∧ t.pending = s.pending) ∧
  (∀ (c : Instr) (s : State) (a : List WireAct), exec c { s with acts := a } = exec c s)

/-! ## Resets -/

/-- The values after power-on reset (R35, R44, R65, R78, R92, R110, R129, R154, R170, R171, R181, R187).
The levels of the pins are the model's choice (log entry 6) and are not stated; `insertWait` and
`joinTicket` are the model's own fields (log entry 43). -/
def Obligations.ResetLeavesTheManualsValues : Prop :=
  (∀ p : PortNo,
    let x := State.reset.port p
    x.state = .empty ∧ x.plugged = false ∧ x.target = .off ∧ x.stamp = 0 ∧ x.classRecord = none ∧
      x.firmware = none ∧ x.endReason = .none ∧ x.profile = [] ∧ x.stale = false ∧ x.cursor = 0 ∧
      x.restart = false ∧ x.silence = 0 ∧ x.keepDue = false ∧ x.bootAttempts = 0 ∧ x.tripCount = 0 ∧
      x.recovery = 0 ∧ x.waiters = [] ∧ x.timer = none ∧ x.cut = false ∧ x.stateBeat = 0 ∧
      x.lane = .closed ∧ x.stepClaim = false ∧ x.wakePulse = none ∧ x.plugDebounce = some 50 ∧
      x.railOn = false ∧ x.toReader = [] ∧ x.insertWait = 0 ∧ x.joinTicket = 0) ∧
    State.reset.stampCounter = 0 ∧
    State.reset.cadence = { tickPhase := 0, beat := 0, beatMs := 100, pendingBeatMs := none } ∧
    State.reset.reader = { queue := [], state := .idle } ∧
    State.reset.governor.settings =
      { grantLimit := 3, windowMs := 200, bootCap := 4, holdoffMs := 500, tripLevel := 108 } ∧
    State.reset.governor.queue = [] ∧ State.reset.governor.history = [] ∧
    State.reset.governor.slotsHeld = 0 ∧ State.reset.governor.state = .opened ∧
    State.reset.monitor.state = .armed ∧ State.reset.monitor.tripLevel = 108 ∧
    State.reset.walker.state = .detached ∧ State.reset.walker.anchor = .absent ∧
    State.reset.walker.takenCount = 0 ∧ State.reset.walker.finishedCount = 0 ∧
    State.reset.walker.copy = none ∧ State.reset.walker.lookAgain = false ∧
    State.reset.walker.accesses = [] ∧ (∀ e, State.reset.entry e = none) ∧
    (∀ g, (State.reset.group g).defn = none ∧ (State.reset.group g).active = 0) ∧
    (∀ r, State.reset.sweep r = none) ∧ (∀ n, State.reset.binding n = none) ∧
    (∀ n, (State.reset.line n).changes = 0 ∧ (State.reset.line n).result = .none ∧
      (State.reset.line n).debounce = some 20 ∧ (State.reset.line n).level = (State.reset.line n).raw) ∧
    State.reset.writer.posting = [] ∧ (∀ x, State.reset.writer.serialOf x = 0) ∧
    readRegister .ident State.reset = 0x5A160001 ∧ readRegister .control State.reset = 0x100 ∧
    readRegister .attn State.reset = 0 ∧ readRegister .attnMask State.reset = 0 ∧
    readRegister .nudge State.reset = 0 ∧ readRegister .boardLo State.reset = 0 ∧
    readRegister .boardHi State.reset = 0 ∧ readRegister .unused State.reset = 0

/-- POWER_ON_RESET and RIG_RESET bring every block to its reset state, with the pins as they are: the
debounced level of a line is its raw level, and every plug debounce and input debounce runs anew. The
registers are those of R187. A supply below 10.8 V trips the monitor at once (R110); any other leaves it
ARMED. On the wires a rig reset stops a try on the identity bus, with both bus wires and the select released
and no stop condition, and does nothing else: no lane sees an end mark (R65, R78). That it is whole in its
write event, and looks at the pins there, and that a write in progress has no landing, are the model's choices
(log entries 33 and 37). -/
def Obligations.PowerOnAndRigResetReturnEveryBlock : Prop :=
  ∀ (s : State) (w : Word),
    let after (powerOn rig link : Bool) (acts : List WireAct) : State :=
      { State.reset with
        pending := s.pending
        acts := acts
        ports := s.ports.map fun x => { Port.reset with plugLevel := x.plugLevel }
        lines := s.lines.map fun l => { Line.reset with raw := l.raw, level := l.raw }
        monitor :=
          { tripLevel := 108, supply := s.monitor.supply, levelsHanded := []
            state := if s.monitor.supply < 10800 then .tripped else .armed
            tripsHanded := if s.monitor.supply < 10800 then 1 else 0 }
        regs :=
          { State.reset.regs with
            powerOn := powerOn, rig := rig, link := link
            attn := if s.monitor.supply < 10800 then 0x10 else 0 } }
    exec .powerOnReset s = .next (after true false false []) ∧
      exec (.rigReset w) s =
        .next
          (after s.regs.powerOn true s.regs.link
            (match s.reader.state with
              | .reading _ => [.idBusRelease, .idRelease]
              | _ => []))

/-- LINK_RESET: the walker is DETACHED with no anchor, copy, access or count, the In-flight Table is
empty, waiter lists are emptied with no outcome, sweeps of requests are gone and those of lines stay, the
registers are those of R187, the posting list is empty; everything else keeps its value. That the walker's
access and the Status Writer's write in progress end here, and that the addresses of the last good header and
the boundaries not yet taken stay, are the model's choices (log entries 18 and 37). -/
def Obligations.LinkResetAbandonsRequestsOnly : Prop :=
  ∀ s : State, s.poolSound = true →
    ∃ t, exec .linkReset s = .next t ∧
      (∀ p, t.port p = { s.port p with waiters := [] }) ∧
      t.pending = s.pending ∧ t.cadence = s.cadence ∧ t.stampCounter = s.stampCounter ∧
      t.reader = s.reader ∧ SupplyKept s t ∧ t.lines = s.lines ∧ t.bindings = s.bindings ∧
      (∀ e, t.entry e = none) ∧
      (∀ r, t.sweep r = match s.sweep r with
        | some x => (match x.origin with | .request _ => none | .line _ => some x)
        | none => none) ∧
      (∀ g, (t.group g).defn = (s.group g).defn ∧ (t.group g).active = t.sweepsOf g) ∧
      t.walker =
        { state := .detached, anchor := .absent, takenCount := 0, finishedCount := 0
          board := s.walker.board, copy := none, lookAgain := false, accesses := [], current := none
          boundaries := s.walker.boundaries } ∧
      t.writer.posting = [] ∧ t.writer.current = none ∧
      (∀ x, t.writer.serialOf x = s.writer.serialOf x) ∧
      t.regs =
        { poll := false, powerOn := s.regs.powerOn, rig := s.regs.rig, link := true, attn := 0
          attnMask := 0, boardLo := 0, boardHi := 0 }

/-- Power-on and rig reset empty the posting list, drop a write in progress and set every serial to 0, so
that the first write of a slot carries serial 1; a link reset empties the list and keeps the serials
(R181). -/
def Obligations.ResetsOfTheStatusWriter : Prop :=
  ∀ (s : State) (w : Word),
    (∀ c ∈ [Instr.powerOnReset, Instr.rigReset w],
      ∃ t, exec c s = .next t ∧ t.writer.posting = [] ∧ t.writer.current = none ∧
        ∀ x, t.writer.serialOf x = 0 ∧ (t.writer.raiseSerial x).serialOf x = 1) ∧
    ∃ t, exec .linkReset s = .next t ∧ t.writer.posting = [] ∧
      ∀ x, t.writer.serialOf x = s.writer.serialOf x

/-! ## Time -/

/-- TICK: every deadline set falls by one and the phase advances (R37, R38). The model's choices: a deadline
that has expired and waits to be taken stays so through a tick (log entry 4); a boundary of the tick before that
still stands is taken first (log entry 7); a debounced insertion that waits to be taken has waited one tick more,
by which insertions keep their order (R69; log entry 43). -/
def Obligations.TickCountsEveryDeadlineDown : Prop :=
  ∀ s : State, s.settled = true → s.rigSound = true →
    (s.cadence.tickPhase < s.cadence.beatMs →
      ∃ t, exec .tick s = .next t ∧
        t.cadence = { s.cadence with tickPhase := s.cadence.tickPhase + 1 } ∧
        (∀ p, t.port p =
          { s.port p with
            timer := (s.port p).timer.map (· - 1)
            wakePulse := (s.port p).wakePulse.map (· - 1)
            plugDebounce := (s.port p).plugDebounce.map (· - 1)
            insertWait :=
              if (s.port p).plugDebounce = some 0 ∧ (s.port p).plugLevel = true ∧ (s.port p).plugged = false then
                (s.port p).insertWait + 1
              else 0
            lane := match (s.port p).lane with
              | .sending ph n => .sending ph (n - 1)
              | .gap ph n => .gap ph (n - 1)
              | l => l }) ∧
        t.reader =
          { s.reader with
            state := match s.reader.state with
              | .retryWait r n => .retryWait r (n - 1)
              | x => x } ∧
        t.governor =
          { s.governor with
            history := s.governor.history.map (· - 1)
            state := match s.governor.state with
              | .opened => .opened
              | .holdoff n => .holdoff (n - 1) } ∧
        (∀ n, t.line n = { s.line n with debounce := (s.line n).debounce.map (· - 1) }) ∧
        t.pending = s.pending ∧ t.stampCounter = s.stampCounter ∧ t.monitor = s.monitor ∧
        BoardKept s t ∧ GroupsKept s t ∧ t.writer = s.writer ∧ RegsKept s t) ∧
    (s.cadence.beatMs ≤ s.cadence.tickPhase →
      ∃ u, exec .beatBoundary s = .next u ∧ exec .tick s = exec .tick u)

/-- BEAT_BOUNDARY, once the phase has reached BEAT_MS (R39, R40): phase 0, the counter one on, wrapping, a
pending beat length applied; the boundary with the new beat goes to every port, to the walker and to every
sweep with a stagger. POLLING (R43): a boundary at the walker asks for a look in WATCHING with POLL set
and no link read due, and otherwise for nothing. -/
def Obligations.BeatBoundaryAdvancesTheBeat : Prop :=
  (∀ s : State, s.settled = true → s.cadence.beatMs ≤ s.cadence.tickPhase →
       ∃ t, exec .beatBoundary s = .next t ∧
         t.cadence =
           { tickPhase := 0, beat := s.cadence.beat + 1, pendingBeatMs := none
             beatMs := match s.cadence.pendingBeatMs with | some b => b | none => s.cadence.beatMs } ∧
         (∀ p, t.port p = { s.port p with boundaries := (s.port p).boundaries ++ [s.cadence.beat + 1] }) ∧
         t.walker = { s.walker with boundaries := s.walker.boundaries + 1 } ∧
         (∀ r, t.sweep r = (s.sweep r).map fun x =>
           if 1 ≤ x.stagger then { x with stepsOwed := x.stepsOwed + 1 } else x) ∧
         t.pending = s.pending ∧ t.stampCounter = s.stampCounter ∧ t.reader = s.reader ∧ SupplyKept s t ∧
         t.inflight = s.inflight ∧ t.groups = s.groups ∧ t.bindings = s.bindings ∧ t.lines = s.lines ∧
         t.writer = s.writer ∧ RegsKept s t) ∧
  (∀ s : State, s.settled = true → 0 < s.walker.boundaries →
       ∃ t, exec .polling s = .next t ∧ PortsKept s t ∧ RigKept s t ∧ t.reader = s.reader ∧
         t.stampCounter = s.stampCounter ∧ t.inflight = s.inflight ∧ t.writer = s.writer ∧ RegsKept s t ∧
         t.walker.boundaries = s.walker.boundaries - 1 ∧ t.walker.state = s.walker.state ∧
         t.walker.anchor = s.walker.anchor ∧ t.walker.lookAgain = s.walker.lookAgain ∧
         (if s.walker.state = .watching ∧ s.regs.poll = true ∧ s.walker.hasLinkRead = false then
             t.walker.due = s.walker.due ++ [.linkRead]
           else t.walker.due = s.walker.due))

/-- KEEPALIVE_BOUNDARY (R41, R42): at an alive port whose test (b + p) modulo P is 0, with silence below the
lapse limit, silence rises by one and keepalive due is yes, and a FREE lane begins a KEEP; at any other port,
with or without a class record, the boundary changes nothing. With silence at the lapse limit it is a lapse
(R32): stale yes and the rail cut; by target and recovery count the port goes to OFF, to QUEUED with the
recovery count one higher, or to FAULTED(LAPSE). -/
def Obligations.KeepaliveBoundariesAndLapses : Prop :=
  (∀ (p : PortNo) (b : Word) (rest : List Word) (s : State), s.settled = true →
       (s.port p).boundaries = b :: rest → (s.port p).state.isAlive = false →
       ∃ t, exec (.keepaliveBoundary p) s = .next t ∧ OnlyPort p s t ∧ RegsKept s t ∧
         t.port p = { s.port p with boundaries := rest }) ∧
  (∀ (p : PortNo) (b : Word) (rest : List Word) (c : ClassRecord) (s : State), s.settled = true →
       (s.port p).boundaries = b :: rest → (s.port p).classRecord = some c →
       ((s.port p).state.isAlive = true → (b.toNat + p.val) % c.keepalivePeriod.toNat ≠ 0 →
         ∃ t, exec (.keepaliveBoundary p) s = .next t ∧ OnlyPort p s t ∧ RegsKept s t ∧
           t.port p = { s.port p with boundaries := rest }) ∧
       ((s.port p).state.isAlive = true → (b.toNat + p.val) % c.keepalivePeriod.toNat = 0 →
         (s.port p).silence < c.lapseLimit.toNat →
         ∃ t, exec (.keepaliveBoundary p) s = .next t ∧ OnlyPort p s t ∧ RegsKept s t ∧
           t.port p =
             { s.port p with
               boundaries := rest, silence := (s.port p).silence + 1, keepDue := true
               lane := if (s.port p).lane = .free then .sending (newPhrase .keep []) 2
                 else (s.port p).lane })) ∧
  (∀ (p : PortNo) (b : Word) (rest : List Word) (c : ClassRecord) (s : State), s.settled = true →
       (s.port p).boundaries = b :: rest → (s.port p).classRecord = some c →
       (s.port p).state.isAlive = true → (b.toNat + p.val) % c.keepalivePeriod.toNat = 0 →
       c.lapseLimit.toNat ≤ (s.port p).silence →
       ∃ t, exec (.keepaliveBoundary p) s = .next t ∧ PortAndOutcomes p s t ∧ (t.port p).stale = true ∧
         (t.port p).stamp = (s.port p).stamp ∧ (s.port p).cableKept (t.port p) ∧
         (t.port p).profile = (s.port p).profile ∧ (t.port p).boundaries = rest ∧
         (if (s.port p).target = .off then
             OffEntered p .lapsed s t ∧ (t.port p).toGovernor = (s.port p).toGovernor
           else if (s.port p).recovery < 2 then
             QueuedEntered p .lapsed [.claim] s t ∧ (t.port p).recovery = (s.port p).recovery + 1 ∧
               (t.port p).bootAttempts = (s.port p).bootAttempts ∧
               (t.port p).tripCount = (s.port p).tripCount
           else FaultEntered p .lapse s t ∧ (t.port p).toGovernor = (s.port p).toGovernor ∧
             (s.port p).countsKept (t.port p)))

/-- SWEEP_STEP (R159 to R161): the beats until the next visit fall by one, and while some are left no port and
no other record changes. At the last beat a member whose stamp is newer than the start stamp is skipped with its
port unchanged, any other takes the sweep's target set; a decided answer reaches the entry of a request; the
cursor goes one place on, and the record is freed and the group's count lowered at the last visit. Where the
sweep ends beside a STALLED walker, its held copy is taken again in the same event (R122, R161); that DONE
writes of the event stand before that take's writes is the model's choice (log entry 39). The visiting order
begins at the lead, runs to the end of the list and on from its start, and names each member once (R156). Newer is
the test of R10, a difference of 1 to 2^31 − 1 modulo 2^32; that a stamp exactly 2^31 draws before the start is
visited, beside R159's remark, is the model's choice (log entry 42). -/
def Obligations.SweepStepsCountAndVisit : Prop :=
  (∀ (r : SweepNo) (x : Sweep) (s : State), s.settled = true → s.sweep r = some x →
       0 < x.stepsOwed → 1 < x.beatsUntil →
       ∃ t, exec (.sweepStep r) s = .next t ∧
         (∀ q, t.sweep q =
           if q = r then some { x with beatsUntil := x.beatsUntil - 1, stepsOwed := x.stepsOwed - 1 }
           else s.sweep q) ∧
         t.pending = s.pending ∧ PortsKept s t ∧ t.groups = s.groups ∧ t.bindings = s.bindings ∧
         ClockAndLinesKept s t ∧ SupplyKept s t ∧ t.reader = s.reader ∧ t.stampCounter = s.stampCounter ∧
         BoardKept s t ∧ t.writer = s.writer ∧ RegsKept s t) ∧
  (∀ (r : SweepNo) (x : Sweep) (d : GroupDef) (p : PortNo) (s : State),
       s.walker.state ≠ .stalled ∨ 1 < x.remaining → s.sweep r = some x → 0 < x.stepsOwed →
       x.beatsUntil = 1 → 1 ≤ x.remaining → 1 ≤ x.stagger → (s.group x.group).defn = some d →
       d.members[x.cursor]? = some p →
       ∃ t, exec (.sweepStep r) s = .next t ∧ SweepVisited r x d p s t) ∧
  (∀ (r : SweepNo) (x : Sweep) (d : GroupDef) (p : PortNo) (c : FetchedCopy) (s : State),
       s.walker.state = .stalled → s.walker.copy = some c → s.sweep r = some x → 0 < x.stepsOwed →
       x.beatsUntil = 1 → x.remaining = 1 → 1 ≤ x.stagger → (s.group x.group).defn = some d →
       d.members[x.cursor]? = some p →
       ∃ u, SweepVisited r x d p s u ∧ TakenAgain c (exec (.sweepStep r) s) s u) ∧
  (∀ (d : GroupDef), d.lead < d.members.length →
       d.visitingOrder.length = d.members.length ∧ d.visitingOrder.Perm d.members ∧
         ∀ i, i < d.members.length →
           d.visitingOrder[i]? = d.members[(d.lead + i) % d.members.length]?) ∧
  (∀ (s : State) (start : Word) (p : PortNo),
       s.skips start p = true ↔
         1 ≤ ((s.port p).stamp - start).toNat ∧ ((s.port p).stamp - start).toNat ≤ 2 ^ 31 - 1)

/-! ## Port deadlines -/

/-- SETTLE_EXPIRY in POWERING (R21): BOOTING with the boot-limit timer, the wake pulse, a FREE lane.
WAKE_PULSE_END (R21): the wake line is idle again, and nothing else changes. -/
def Obligations.SettleExpiryAndWakePulse : Prop :=
  (∀ (p : PortNo) (c : ClassRecord) (s : State), s.settled = true → (s.port p).state = .powering →
       (s.port p).timer = some 0 → (s.port p).classRecord = some c →
       ∃ t, exec (.settleExpiry p) s = .next t ∧ OnlyPort p s t ∧ CausesSet 0x02 s t ∧
         PostedWhileAttached (.port p) s t ∧ (t.port p).railOn = true ∧
         t.port p =
           { s.port p with
             state := .booting, stateBeat := s.cadence.beat, timer := some (c.bootLimit.toNat * 100)
             wakePulse := some 10, lane := .free, stepClaim := false, silence := 0, keepDue := false
             cursor := 0, restart := false }) ∧
  (∀ (p : PortNo) (s : State), s.settled = true → (s.port p).wakePulse = some 0 →
       ∃ t, exec (.wakePulseEnd p) s = .next t ∧ OnlyPort p s t ∧ RegsKept s t ∧
         (t.port p).wakeDriven = false ∧ t.port p = { s.port p with wakePulse := none })

/-- BOOT_LIMIT_EXPIRY in BOOTING (R22): the first two send the port back to QUEUED, its release before its
claim; the third faults it with BOOT. HOLD_LIMIT_EXPIRY in PAUSING and RESUME_LIMIT_EXPIRY in RESUMING
fault the port with HOLD and RESUME (R25, R27). STOP_LIMIT_EXPIRY in STOPPING (R28, R19): the rail is cut
with end reason STOP_LIMIT and the port enters OFF, from where a target other than OFF takes it on to
QUEUED in the same event. -/
def Obligations.PortTimerExpiriesRetryFaultOrStop : Prop :=
  (∀ (p : PortNo) (s : State), s.settled = true → (s.port p).state = .booting →
       (s.port p).timer = some 0 →
       ∃ t, exec (.bootLimitExpiry p) s = .next t ∧ PortAndOutcomes p s t ∧
         (s.port p).cableKept (t.port p) ∧ (s.port p).mailKept (t.port p) ∧
         (t.port p).stale = (s.port p).stale ∧ (t.port p).bootAttempts = (s.port p).bootAttempts + 1 ∧
         (t.port p).tripCount = (s.port p).tripCount ∧ (t.port p).recovery = (s.port p).recovery ∧
         (if (s.port p).bootAttempts < 2 then QueuedEntered p .bootRetry [.release, .claim] s t
           else FaultEntered p .boot s t ∧ (t.port p).toGovernor = (s.port p).toGovernor ++ [.release])) ∧
  (∀ (p : PortNo) (s : State), s.settled = true → (s.port p).timer = some 0 →
       let rest (r : FaultReason) (t : State) : Prop :=
         FaultEntered p r s t ∧ PortAndOutcomes p s t ∧ (s.port p).cableKept (t.port p) ∧
           (s.port p).mailKept (t.port p) ∧ (s.port p).countsKept (t.port p) ∧
           (t.port p).stale = (s.port p).stale ∧ (t.port p).toGovernor = (s.port p).toGovernor
       ((s.port p).state = .pausing → ∃ t, exec (.holdLimitExpiry p) s = .next t ∧ rest .hold t) ∧
       ((s.port p).state = .resuming → ∃ t, exec (.resumeLimitExpiry p) s = .next t ∧ rest .resume t)) ∧
  (∀ (p : PortNo) (s : State), s.settled = true → (s.port p).state = .stopping →
       (s.port p).timer = some 0 →
       ∃ t, exec (.stopLimitExpiry p) s = .next t ∧ PortAndOutcomes p s t ∧
         (s.port p).cableKept (t.port p) ∧ (s.port p).mailKept (t.port p) ∧
         (t.port p).stale = (s.port p).stale ∧ (t.port p).stamp = (s.port p).stamp ∧
         (t.port p).bootAttempts = 0 ∧ (t.port p).tripCount = 0 ∧ (t.port p).recovery = 0 ∧
         (if (s.port p).target = .off then
             OffEntered p .stopLimit s t ∧ (t.port p).toGovernor = (s.port p).toGovernor
           else QueuedEntered p .stopLimit [.claim] s t))

/-! ## Lanes: the part's phrases -/

/-- The check symbol is the exclusive-or of the code and the payload, and the code alone where there is no
payload; every phrase the part sends carries it last, behind its code of Table 10-10; a SET carries slot, value
high byte, value low byte; a received phrase is valid exactly when it is a camera code with its payload and this
check (R48, R56). -/
def Obligations.CheckSymbolsAreExclusiveOrs : Prop :=
  (∀ c : Byte, checkSymbol [c] = c) ∧
    (∀ (c : Byte) (l : List Byte), checkSymbol (c :: l) = l.foldl (· ^^^ ·) c) ∧
    (∀ (n : PhraseName) (l : List Byte),
      (newPhrase n l).symbols = n.code :: l ++ [checkSymbol (n.code :: l)]) ∧
    [PhraseName.keep, .set, .hold, .release, .halt].map PhraseName.code = [0x10, 0x20, 0x30, 0x31, 0x3F] ∧
    (∀ (x : Port) (e : ProfileEntry), x.profile[x.cursor]? = some e →
      x.stepPayload .set = some [e.slot, e.value.extractLsb' 8 8, e.value.extractLsb' 0 8]) ∧
    (∀ (x : Port) (n : PhraseName), n ≠ .set → x.stepPayload n = some []) ∧
    (∀ rx : RxBuffer, rx.damaged = false →
      (∀ c f, judgePhrase rx = some (.hello c f) ↔
        rx.stored = [0x80, c, f, checkSymbol [0x80, c, f]]) ∧
      (judgePhrase rx = some .settled ↔ rx.stored = [0x90, checkSymbol [0x90]]) ∧
      (judgePhrase rx = some .awake ↔ rx.stored = [0x91, checkSymbol [0x91]]) ∧
      (judgePhrase rx = some .parting ↔ rx.stored = [0x9F, checkSymbol [0x9F]])) ∧
    ∀ rx : RxBuffer, rx.damaged = true → judgePhrase rx = none

/-- ACK_WAIT_EXPIRY (R51, R52, R64): the attempt ends with an end mark; with attempts left the lane waits
in GAP with the phrase; at the third the phrase ends FAILED, which faults the port with LINK for SET, HOLD
and RELEASE, takes it to STOPPING for HALT, and begins a new KEEP for a KEEP still due. A READY port with a
stale profile enters TUNING at that failure, before the new KEEP, and is READY again at once when it has no
profile (R86). -/
def Obligations.AckWaitExpiryFailsTheAttempt : Prop :=
  ∀ (p : PortNo) (ph : Phrase) (s : State), s.settled = true → (s.port p).lane = .sending ph 0 →
    (s.port p).state.isAlive = true →
    ∃ t, exec (.ackWaitExpiry p) s = .next t ∧ PortAndOutcomes p s t ∧ t.acts.head? = some (.laneEnd p) ∧
      (ph.attempt < 3 →
        OnlyPort p s t ∧ RegsKept s t ∧ t.acts = [.laneEnd p] ∧
          t.port p = { s.port p with lane := .gap ph 5 }) ∧
      (3 ≤ ph.attempt → ph.name = .set ∨ ph.name = .hold ∨ ph.name = .release →
        FaultEntered p .link s t ∧ (t.port p).toGovernor = (s.port p).toGovernor ∧
          (s.port p).cableKept (t.port p) ∧ (s.port p).mailKept (t.port p)) ∧
      (3 ≤ ph.attempt → ph.name = .halt →
        OnlyPort p s t ∧ CausesSet 0x02 s t ∧
          t.port p =
            { s.port p with
              state := .stopping, stateBeat := s.cadence.beat, timer := some 3000, lane := .free
              stepClaim := false, silence := 0, keepDue := false, cursor := 0, restart := false }) ∧
      (3 ≤ ph.attempt → ph.name = .keep → (s.port p).keepDue = true →
        ¬((s.port p).state = .ready ∧ (s.port p).stale = true) →
        OnlyPort p s t ∧ RegsKept s t ∧
          t.port p = { s.port p with lane := .sending (newPhrase .keep []) 2 }) ∧
      (3 ≤ ph.attempt → ph.name = .keep → (s.port p).keepDue = true → (s.port p).state = .ready →
        (s.port p).stale = true →
        let x := s.port p
        let keepAgain (y : Port) (claim : Bool) : Port :=
          { y with
            silence := x.silence, keepDue := true, stepClaim := claim
            lane := .sending (newPhrase .keep []) 2 }
        CausesSet 0x02 s t ∧
          (∀ e es, x.profile = e :: es →
            OnlyPort p s t ∧ t.port p = keepAgain (x.nowTuning s.cadence.beat e) true) ∧
          (x.profile = [] →
            t.port p =
                keepAgain (x.nowReady s.cadence.beat) (x.stepClaim || decide (x.target ≠ .awake)) ∧
              if x.target = .awake then WaitersReceive p .reached s t else t.inflight = s.inflight))

/-- RETRY_GAP_EXPIRY begins the next attempt, with the whole phrase again from its code (R51);
SYMBOL_ACKNOWLEDGED sends the next symbol of the attempt (R47). Each symbol goes out with its data bits most
significant first, the parity bit that makes the ones of data and parity together odd, and an acknowledge wait
of 2 ms (R46). The lane clock is held while an attempt waits, runs in a reception up to six symbols, and is
stopped otherwise with the data line released (R46, R47, R54, R55). That the start mark, the symbol and the
start of its wait are one event is the model's choice (log entry 9). -/
def Obligations.AttemptsSendSymbolsWithParity : Prop :=
  (∀ (p : PortNo) (ph : Phrase) (n : Nat) (s : State), s.settled = true →
       let sent (k : Nat) : WireAct :=
         .laneSymbol p (laneBits (ph.symbols.getD k 0)) (parityBit (ph.symbols.getD k 0))
       ((s.port p).lane = .gap ph 0 →
         ∃ t, exec (.retryGapExpiry p) s = .next t ∧ OnlyPort p s t ∧ RegsKept s t ∧
           t.acts = [.laneStart p, sent 0] ∧
           t.port p =
             { s.port p with lane := .sending { ph with attempt := ph.attempt + 1, next := 0 } 2 }) ∧
       ((s.port p).lane = .sending ph n → ph.next + 1 < ph.symbols.length →
         ∃ t, exec (.symbolAcknowledged p) s = .next t ∧ OnlyPort p s t ∧ RegsKept s t ∧
           t.acts = [sent (ph.next + 1)] ∧
           t.port p = { s.port p with lane := .sending { ph with next := ph.next + 1 } 2 })) ∧
  (∀ b : Byte,
     (laneBits b).items =
         [b.getLsbD 7, b.getLsbD 6, b.getLsbD 5, b.getLsbD 4, b.getLsbD 3, b.getLsbD 2, b.getLsbD 1,
           b.getLsbD 0] ∧
       ((laneBits b).items ++ [parityBit b]).count true % 2 = 1) ∧
  (∀ (ph : Phrase) (n : Nat) (rx : RxBuffer),
     (∀ l ∈ [Lane.closed, .free, .gap ph n], l.clock = .stopped ∧ l.data = .released) ∧
       (Lane.sending ph n).clock = .held ∧ (Lane.sending ph n).data = .camera ∧
       (rx.count < 6 →
         (Lane.receiving rx).clock = .running ∧ (Lane.receiving rx).data = .camera) ∧
       (6 ≤ rx.count →
         (Lane.receiving rx).clock = .stopped ∧ (Lane.receiving rx).data = .released))

/-- PART_PHRASE_END_OK of a KEEP (R52, R59, R61, R86): silence 0, keepalive due no, and the lane goes to
the step phrase claimed, if any; a READY port with a stale profile enters TUNING and sends its first
entry, or is READY again at once when it has no profile. Of HOLD, RELEASE and HALT (Table 1-3a, R4): the
state each enters, the timer it sets, and the step phrase that the target calls for next. -/
def Obligations.KeepHoldReleaseAndHaltEndOk : Prop :=
  (∀ (p : PortNo) (ph : Phrase) (n : Nat) (s : State), s.settled = true →
       (s.port p).lane = .sending ph n → ph.next + 1 = ph.symbols.length → ph.name = .keep →
       (s.port p).state.isAlive = true →
       let x := s.port p
       ∃ t, exec (.partPhraseEndOk p) s = .next t ∧ PortAndOutcomes p s t ∧
         t.acts.head? = some (.laneEnd p) ∧
         (¬(x.state = .ready ∧ x.stale = true) →
           OnlyPort p s t ∧ RegsKept s t ∧
             t.port p =
               { x with
                 silence := 0, keepDue := false, stepClaim := false
                 lane := { x with keepDue := false }.laneAtGrant }) ∧
         (∀ e es, x.state = .ready → x.stale = true → x.profile = e :: es →
           OnlyPort p s t ∧ CausesSet 0x02 s t ∧ t.port p = x.nowTuning s.cadence.beat e) ∧
         (x.state = .ready → x.stale = true → x.profile = [] → ReadyEntered p x s t)) ∧
  (∀ (p : PortNo) (ph : Phrase) (n : Nat) (c : ClassRecord) (s : State), s.settled = true →
       (s.port p).lane = .sending ph n → ph.next + 1 = ph.symbols.length →
       (s.port p).classRecord = some c →
       let entered (st : PState) (timer : Deadline) (lane : Lane) : Port :=
         { s.port p with
           state := st, stateBeat := s.cadence.beat, timer := timer, silence := 0, keepDue := false
           stepClaim := false, cursor := 0, restart := false, lane := lane }
       let answer (st : PState) (timer : Deadline) (lane : Lane) (t : State) : Prop :=
         OnlyPort p s t ∧ CausesSet 0x02 s t ∧ PostedWhileAttached (.port p) s t ∧
           t.acts.head? = some (.laneEnd p) ∧ t.port p = entered st timer lane
       (ph.name = .hold → (s.port p).state = .ready ∨ (s.port p).state = .resuming →
         ∃ t, exec (.partPhraseEndOk p) s = .next t ∧
           answer .pausing (if (s.port p).target = .paused then some 1000 else none)
             (match (s.port p).target with
               | .paused => .free
               | .awake => .sending (newPhrase .release []) 2
               | .off => .sending (newPhrase .halt []) 2) t) ∧
       (ph.name = .release → (s.port p).state = .pausing ∨ (s.port p).state = .paused →
         ∃ t, exec (.partPhraseEndOk p) s = .next t ∧
           answer .resuming
             (if (s.port p).target = .awake then some (c.resumeLimit.toNat * 10) else none)
             (match (s.port p).target with
               | .awake => .free
               | .paused => .sending (newPhrase .hold []) 2
               | .off => .sending (newPhrase .halt []) 2) t) ∧
       (ph.name = .halt → (s.port p).state.isAlive = true →
         ∃ t, exec (.partPhraseEndOk p) s = .next t ∧ answer .stopping (some 3000) .free t))

/-- PART_PHRASE_END_OK of a SET (R82, R83, R87): the next entry is sent, or entry 0 of the list now stored
where a replacement came meanwhile, HALT in its place with target OFF; after the last entry the port is
READY with stale no, where target AWAKE is reached. -/
def Obligations.SetEndsOk : Prop :=
  ∀ (p : PortNo) (ph : Phrase) (n : Nat) (s : State), s.settled = true →
    (s.port p).lane = .sending ph n → ph.next + 1 = ph.symbols.length → ph.name = .set →
    (s.port p).state = .tuning →
    let x := s.port p
    ∃ t, exec (.partPhraseEndOk p) s = .next t ∧ PortAndOutcomes p s t ∧
      (∀ e, x.restart = false → x.profile[x.cursor + 1]? = some e →
        OnlyPort p s t ∧ RegsKept s t ∧
          t.port p =
            { x with
              cursor := x.cursor + 1, silence := 0, keepDue := false, stepClaim := false
              lane := x.tuningLane e }) ∧
      (∀ e, x.restart = true → x.profile[0]? = some e →
        OnlyPort p s t ∧ RegsKept s t ∧
          t.port p =
            { x with
              cursor := 0, restart := false, silence := 0, keepDue := false, stepClaim := false
              lane := x.tuningLane e }) ∧
      ((if x.restart then x.profile = [] else x.profile.length ≤ x.cursor + 1) → ReadyEntered p x s t)

/-! ## Lanes: the camera's phrases -/

/-- CAMERA_START_MARK begins a reception at a FREE lane and is not answered at any other (R54, R55, R63).
CAMERA_SYMBOL_RECEIVED (R46, R55): a symbol whose ones with its parity bit are odd is stored, the bit that
crosses first the most significant, and acknowledged, unless the phrase is damaged; any other marks it
damaged and is not acknowledged.
RECEIVE_LIMIT after six symbols, and CAMERA_PHRASE_DISCARDED at the end mark of a phrase that is not valid
(R55, R56): the lane is FREE, silence and keepalive due are as they were, and the event is a grant point.
That at six symbols only RECEIVE_LIMIT acts is the model's choice (log entry 26). -/
def Obligations.ReceptionsAreClockedInAndDiscarded : Prop :=
  (∀ (p : PortNo) (s : State), s.settled = true →
       ((s.port p).lane = .free →
         ∃ t, exec (.cameraStartMark p) s = .next t ∧ OnlyPort p s t ∧ RegsKept s t ∧ t.acts = [] ∧
           t.port p =
             { s.port p with lane := .receiving { stored := [], count := 0, damaged := false } }) ∧
       ((s.port p).lane ≠ .free → exec (.cameraStartMark p) s = .next s.quiet)) ∧
  (∀ (p : PortNo) (rx : RxBuffer) (data : LaneBits) (b : Byte) (parity : Bool) (s : State),
       s.settled = true → (s.port p).lane = .receiving rx → rx.count < 6 →
       (∀ k : Fin 8, data.get k = b.getMsbD k) →
       ∃ t, exec (.cameraSymbolReceived p data parity) s = .next t ∧ OnlyPort p s t ∧ RegsKept s t ∧
         (if rx.damaged = false ∧ (ones b + if parity then 1 else 0) % 2 = 1 then
             t.acts = [.laneAck p] ∧
               t.port p =
                 { s.port p with
                   lane := .receiving { rx with stored := rx.stored ++ [b], count := rx.count + 1 } }
           else
             t.acts = [.laneWithhold p] ∧
               t.port p =
                 { s.port p with
                   lane := .receiving { rx with count := rx.count + 1, damaged := true } })) ∧
  (∀ (p : PortNo) (rx : RxBuffer) (s : State), s.settled = true → (s.port p).lane = .receiving rx →
       let freed (t : State) : Prop :=
         OnlyPort p s t ∧ RegsKept s t ∧
           t.port p =
             { s.port p with
               lane := (s.port p).laneAtGrant
               stepClaim := (s.port p).keepDue && (s.port p).stepClaim }
       (6 ≤ rx.count → ∃ t, exec (.receiveLimit p) s = .next t ∧ freed t) ∧
       (rx.count < 6 → judgePhrase rx = none →
         ∃ t, exec (.cameraPhraseDiscarded p) s = .next t ∧ freed t))

/-- HELLO (R22, R31, R58, R81): the firmware level is stored; a class other than the record's faults the
port with MISMATCH; in BOOTING and in an alive state a match takes it to TUNING with the whole profile to
send, or to READY when it has none, the slot released in BOOTING; in STOPPING a match changes nothing
else. That a match in TUNING is no change of state, so that the state beat and PORT_CHANGE stay as they are, is
the model's choice (log entry 14). -/
def Obligations.HelloTunesOrFaults : Prop :=
  ∀ (p : PortNo) (rx : RxBuffer) (code fw : Byte) (c : ClassRecord) (s : State), s.settled = true →
    s.portsSound = true → (s.port p).lane = .receiving rx → rx.count < 6 →
    judgePhrase rx = some (.hello code fw) → (s.port p).classRecord = some c →
    let x := s.port p
    let heard : Port :=
      { x with
        firmware := some fw, bootAttempts := 0, tripCount := 0
        toGovernor := x.toGovernor ++ (if x.state = .booting then [.release] else []) }
    ∃ t, exec (.hello p) s = .next t ∧ PortAndOutcomes p s t ∧ (t.port p).firmware = some fw ∧
      (code ≠ c.classCode →
        FaultEntered p .mismatch s t ∧ x.countsKept (t.port p) ∧
          (t.port p).toGovernor = x.toGovernor ++ (if x.state = .booting then [.release] else [])) ∧
      (∀ e es, code = c.classCode → x.profile = e :: es → x.state = .booting ∨ x.state.isAlive = true →
        OnlyPort p s t ∧ t.port p = heard.nowTuning s.cadence.beat e ∧
          (if x.state = .tuning then RegsKept s t else CausesSet 0x02 s t)) ∧
      (code = c.classCode → x.profile = [] → x.state = .booting ∨ x.state.isAlive = true →
        ReadyEntered p heard s t) ∧
      (code = c.classCode → x.state = .stopping →
        OnlyPort p s t ∧ RegsKept s t ∧ t.port p = { x with firmware := some fw, lane := .free })

/-- SETTLED (R25, R26, R57): a PAUSING port enters PAUSED, where target PAUSED is reached and any other
sends its step phrase. AWAKE (R27): a RESUMING port enters TUNING if its profile is stale, else READY,
where target AWAKE is reached and any other sends its step phrase. In another alive state the exchange
counts and changes nothing else; in BOOTING and STOPPING the phrase is ignored (R22, R28). -/
def Obligations.SettledAndAwakeMoveThePort : Prop :=
  (∀ (p : PortNo) (rx : RxBuffer) (s : State), s.settled = true → (s.port p).lane = .receiving rx →
       rx.count < 6 → judgePhrase rx = some .settled →
       let x := s.port p
       ∃ t, exec (.settled p) s = .next t ∧ PortAndOutcomes p s t ∧
         (x.state = .pausing →
           CausesSet 0x02 s t ∧
             (if x.target = .paused then WaitersReceive p .reached s t else t.inflight = s.inflight) ∧
             t.port p =
               { x with
                 state := .paused, stateBeat := s.cadence.beat, timer := none, silence := 0
                 keepDue := false, stepClaim := false, cursor := 0, restart := false
                 waiters := if x.target = .paused then [] else x.waiters
                 recovery := if x.target = .paused then 0 else x.recovery
                 lane := match x.target with
                   | .paused => .free
                   | .awake => .sending (newPhrase .release []) 2
                   | .off => .sending (newPhrase .halt []) 2 }) ∧
         (x.state ≠ .pausing → x.state.isAlive = true →
           OnlyPort p s t ∧ RegsKept s t ∧
             t.port p =
               { x with
                 silence := 0, keepDue := false, stepClaim := false
                 lane := { x with keepDue := false }.laneAtGrant }) ∧
         (x.state = .booting ∨ x.state = .stopping → x.keepDue = false → x.stepClaim = false →
           OnlyPort p s t ∧ RegsKept s t ∧ t.port p = { x with lane := .free })) ∧
  (∀ (p : PortNo) (rx : RxBuffer) (s : State), s.settled = true → (s.port p).lane = .receiving rx →
       rx.count < 6 → judgePhrase rx = some .awake →
       let x := s.port p
       ∃ t, exec (.awake p) s = .next t ∧ PortAndOutcomes p s t ∧
         (x.state = .resuming → x.stale = false ∨ x.profile = [] → ReadyEntered p x s t) ∧
         (∀ e es, x.state = .resuming → x.stale = true → x.profile = e :: es →
           CausesSet 0x02 s t ∧ OnlyPort p s t ∧ t.port p = x.nowTuning s.cadence.beat e) ∧
         (x.state ≠ .resuming → x.state.isAlive = true →
           OnlyPort p s t ∧ RegsKept s t ∧
             t.port p =
               { x with
                 silence := 0, keepDue := false, stepClaim := false
                 lane := { x with keepDue := false }.laneAtGrant }) ∧
         (x.state = .booting ∨ x.state = .stopping → x.keepDue = false → x.stepClaim = false →
           OnlyPort p s t ∧ RegsKept s t ∧ t.port p = { x with lane := .free }))

/-- PARTING (R28, R30, R57): an alive port draws a stamp and enters OFF with target OFF, its waiters
answered PARTED; a STOPPING port enters OFF with end reason STOPPED; a BOOTING port ignores it. -/
def Obligations.PartingSwitchesThePortOff : Prop :=
  ∀ (p : PortNo) (rx : RxBuffer) (s : State), s.settled = true → (s.port p).lane = .receiving rx →
    rx.count < 6 → judgePhrase rx = some .parting →
    let x := s.port p
    ∃ t, exec (.parting p) s = .next t ∧ RigKept s t ∧ OtherPortsKept p s t ∧ t.reader = s.reader ∧
      WalkerKeptButAccesses s t ∧ RegsKeptButAttn s t ∧ x.cableKept (t.port p) ∧ x.mailKept (t.port p) ∧
      (x.state.isAlive = true →
        t.stampCounter = s.stampCounter + 1 ∧ CausesSet 0x02 s t ∧ WaitersReceive p .parted s t ∧
          (t.port p).state = .off ∧ (t.port p).target = .off ∧
          (t.port p).stamp = s.stampCounter + 1 ∧ (t.port p).endReason = .parted ∧
          (t.port p).waiters = [] ∧ (t.port p).railDown ∧ (t.port p).bootAttempts = 0 ∧
          (t.port p).tripCount = 0 ∧ (t.port p).recovery = 0 ∧
          (t.port p).toGovernor = x.toGovernor ∧ (t.port p).stale = x.stale) ∧
      (x.state = .stopping → x.target = .off →
        t.stampCounter = s.stampCounter ∧ OffEntered p .stopped s t ∧ (t.port p).stamp = x.stamp ∧
          (t.port p).toGovernor = x.toGovernor ∧ (t.port p).stale = x.stale) ∧
      (x.state = .stopping → x.target ≠ .off →
        t.stampCounter = s.stampCounter ∧ QueuedEntered p .stopped [.claim] s t) ∧
      (x.state = .booting → x.keepDue = false → x.stepClaim = false →
        t.stampCounter = s.stampCounter ∧ BoardKept s t ∧ RegsKept s t ∧ t.port p = { x with lane := .free })

/-! ## Plugs and the reader -/

/-- PLUG_SENSE_CHANGE sets the debounce anew to 50 ms (R67); a level that is already there is no change, and the
command then has no effect (the model's choice, log entry 3). PLUG_DEBOUNCE_EXPIRY with a cable seated at an
EMPTY port (R18, R67, R68): IDENTIFYING with plugged yes and a join handed to the reader, behind every join
handed before it (R69, R78; log entry 43); that the results of earlier reads are dropped here is the model's
choice (log entry 15). Insertions are taken in the order of the ticks in which the debounces expire: one is not
taken while one that waits at another port expired in an earlier tick, and the command then has no effect (the
model's choice, log entries 3 and 43). An input that agrees with plugged gives nothing. -/
def Obligations.PlugSenseAndInsertion : Prop :=
  let insertion (q : PortNo) (s : State) : Prop :=
    (s.port q).plugDebounce = some 0 ∧ (s.port q).plugLevel = true ∧ (s.port q).plugged = false
  (∀ (p : PortNo) (seated : Bool) (s : State), s.settled = true →
       (seated ≠ (s.port p).plugLevel →
         ∃ t, exec (.plugSenseChange p seated) s = .next t ∧ OnlyPort p s t ∧ RegsKept s t ∧
           t.port p = { s.port p with plugLevel := seated, plugDebounce := some 50 }) ∧
       (seated = (s.port p).plugLevel → exec (.plugSenseChange p seated) s = .next s.quiet)) ∧
  (∀ (p : PortNo) (s : State), s.settled = true → (s.port p).plugDebounce = some 0 →
       ((s.port p).plugLevel = true → (s.port p).plugged = false → (s.port p).state = .empty →
         (∀ q, insertion q s → (s.port q).insertWait ≤ (s.port p).insertWait) →
         ∃ t, exec (.plugDebounceExpiry p) s = .next t ∧ OnlyPort p s t ∧ CausesSet 0x02 s t ∧
           PostedWhileAttached (.port p) s t ∧
           t.port p =
             { s.port p with
               state := .identifying, plugged := true, stateBeat := s.cadence.beat, plugDebounce := none
               timer := none, silence := 0, keepDue := false, stepClaim := false, cursor := 0
               restart := false, idResults := [], toReader := (s.port p).toReader ++ [.join]
               joinTicket := s.nextTicket }) ∧
       (∀ q, insertion p s → insertion q s → (s.port p).insertWait < (s.port q).insertWait →
         exec (.plugDebounceExpiry p) s = .next s.quiet) ∧
       ((s.port p).plugLevel = (s.port p).plugged →
         ∃ t, exec (.plugDebounceExpiry p) s = .next t ∧ OnlyPort p s t ∧ RegsKept s t ∧
           t.port p = { s.port p with plugDebounce := none }))

/-- PLUG_DEBOUNCE_EXPIRY with no cable at a plugged port (R29, R75, R76): EMPTY in one event, the rail
cut, the claim withdrawn or the slot released, the class record and firmware removed, every waiter
answered UNPLUGGED, the profile kept; an IDENTIFYING port that waits in the Reader Queue leaves it, and one
that is being read or has been served hands the reader a withdrawal. That a join still on its way is annulled,
with no withdrawal, is the model's choice (log entry 15). -/
def Obligations.PlugDebounceRemovesTheCable : Prop :=
  ∀ (p : PortNo) (s : State), s.settled = true → (s.port p).plugDebounce = some 0 →
    (s.port p).plugLevel = false → (s.port p).plugged = true → (s.port p).state ≠ .empty →
    let x := s.port p
    let waits : Bool :=
      decide (x.state = .identifying) && decide (p ∈ s.reader.queue) &&
        (match s.reader.state with
          | .idle => true
          | .reading r => r.port != p
          | .retryWait r _ => r.port != p)
    let joining : Bool := decide (x.state = .identifying) && decide (.join ∈ x.toReader)
    ∃ t, exec (.plugDebounceExpiry p) s = .next t ∧ RigKept s t ∧ OtherPortsKept p s t ∧
      WalkerKeptButAccesses s t ∧ t.stampCounter = s.stampCounter ∧ CausesSet 0x02 s t ∧
      WaitersReceive p .unplugged s t ∧
      t.reader = (if waits then { s.reader with queue := s.reader.queue.erase p } else s.reader) ∧
      (t.port p).toReader =
        (if x.state = .identifying then x.toReader.filter (· != .join) else x.toReader) ++
          (if x.state = .identifying ∧ waits = false ∧ joining = false then [.withdrawal] else []) ∧
      (t.port p).toGovernor =
        x.toGovernor ++
          (if x.state = .queued then [.withdrawal] else if x.state.isWarming then [.release] else []) ∧
      (t.port p).state = .empty ∧ (t.port p).plugged = false ∧ (t.port p).classRecord = none ∧
      (t.port p).firmware = none ∧ (t.port p).target = .off ∧ (t.port p).stamp = x.stamp ∧
      (t.port p).endReason = .unplugged ∧ (t.port p).waiters = [] ∧ (t.port p).bootAttempts = 0 ∧
      (t.port p).tripCount = 0 ∧ (t.port p).recovery = 0 ∧ (t.port p).silence = 0 ∧
      (t.port p).keepDue = false ∧ (t.port p).timer = none ∧ (t.port p).profile = x.profile ∧
      (t.port p).stale = x.stale ∧ (t.port p).stateBeat = s.cadence.beat ∧
      (x.railOn = true → (t.port p).railDown)

/-- READER_JOIN (R69, R70): the port joins the tail of the Reader Queue; an IDLE reader begins the first try of
the read at once, a busy one goes on. Joins are taken in the order of their tickets, which is that of the events
that handed them: a ticket handed now is behind every one handed before. One is not taken while an earlier one
is on its way, and the command then has no effect (R69, R78; log entries 3 and 43). READER_WITHDRAWAL (R76): the
port leaves the queue; a read of it is abandoned, with a stop condition if its try is on the bus, and the next
read starts; a read of another port goes on. -/
def Obligations.ReaderJoinsAndWithdrawals : Prop :=
  (∀ (p : PortNo) (rest : List ReaderMsg) (s : State), s.settled = true →
       (s.port p).toReader = .join :: rest →
       (∀ q, .join ∈ (s.port q).toReader → (s.port p).joinTicket ≤ (s.port q).joinTicket) →
       ∃ t, exec (.readerJoin p) s = .next t ∧ RigKept s t ∧ BoardKept s t ∧ RegsKept s t ∧
         t.writer = s.writer ∧ t.stampCounter = s.stampCounter ∧ OtherPortsKept p s t ∧
         t.port p = { s.port p with toReader := rest, joinTicket := 0 } ∧
         t.reader.queue = s.reader.queue ++ [p] ∧
         (s.reader.state ≠ .idle → t.reader.state = s.reader.state ∧ t.acts = []) ∧
         (s.reader.state = .idle → s.reader.queue = [] →
           t.reader.state = .reading { port := p, tryNo := 1, bytes := [] } ∧
             t.acts =
               [.idSelect p, .idStart,
                 .idAddress ⟨[true, false, true, false, false, true, false], rfl⟩ false])) ∧
  (∀ (p q : PortNo) (s : State), s.settled = true → .join ∈ (s.port q).toReader →
       (s.port q).joinTicket < s.nextTicket ∧
         ((s.port q).joinTicket < (s.port p).joinTicket → exec (.readerJoin p) s = .next s.quiet)) ∧
  (∀ (p : PortNo) (rest : List ReaderMsg) (s : State), s.settled = true →
       (s.port p).toReader = .withdrawal :: rest →
       let next : ReaderState :=
         match s.reader.queue.erase p with
         | [] => .idle
         | q :: _ => .reading { port := q, tryNo := 1, bytes := [] }
       ∃ t, exec (.readerWithdrawal p) s = .next t ∧ RigKept s t ∧ BoardKept s t ∧ RegsKept s t ∧
         t.writer = s.writer ∧ t.stampCounter = s.stampCounter ∧ OtherPortsKept p s t ∧
         t.port p = { s.port p with toReader := rest } ∧ t.reader.queue = s.reader.queue.erase p ∧
         (∀ r, s.reader.state = .reading r → r.port = p →
           t.reader.state = next ∧ t.acts.take 2 = [.idStop, .idRelease]) ∧
         (∀ r d, s.reader.state = .retryWait r d → r.port = p → t.reader.state = next) ∧
         (∀ r, s.reader.state = .reading r → r.port ≠ p → t.reader.state = s.reader.state ∧ t.acts = []) ∧
         (∀ r d, s.reader.state = .retryWait r d → r.port ≠ p →
           t.reader.state = s.reader.state ∧ t.acts = []) ∧
         (s.reader.state = .idle → t.reader.state = .idle))

/-- An identity record is valid exactly when it passes every test of Table 4-3, and its fields are then
the class record (R73). -/
def Obligations.RecordsAreValidatedByTable43 : Prop :=
  ∀ (b : Table Byte 8) (c : ClassRecord),
    validateRecord b = some c ↔
      (b.get 0 = 0xA6 ∧ b.get 1 ≠ 0 ∧ b.get 1 ≠ 255 ∧ b.get 2 ≠ 0 ∧ b.get 3 ≠ 0 ∧ b.get 4 ≠ 0 ∧
        b.get 5 ≠ 0 ∧ (b.get 5).toNat ≤ 8 ∧ b.get 6 ≠ 0 ∧
        b.get 7 = b.get 0 + b.get 1 + b.get 2 + b.get 3 + b.get 4 + b.get 5 + b.get 6 ∧
        c =
          { classCode := b.get 1, railSettle := b.get 2, bootLimit := b.get 3
            keepalivePeriod := b.get 4, lapseLimit := b.get 5, resumeLimit := b.get 6 })

/-- TRY_END (R72, R74): a record ends the read with its result at the port; a missing acknowledge on try 1
waits 10 ms for the second try, on try 2 it ends the read with PLUG_NOACK. A read that ends takes the port
off the head of the queue, and the next read starts. A result of an earlier identification is not handed to a
port that is IDENTIFYING again (R76; log entry 15). On the bus a missing acknowledge is followed at once by a
stop, a record is read to its end, and the select is released (R71). The bits of each byte go and come the most
significant first (R71); that the direction is kept beside the seven bits of the device address is log entry 44.
PLUG_READ_RETRY_EXPIRY begins the second try (R72). That the bytes of a record, and these acts, come whole with the
end of the try is the model's choice (log entry 22). -/
def Obligations.TriesDeliverOrRetry : Prop :=
  (∀ (r : ReadInProgress) (result : TryResult) (bits : Table LaneBits 8) (bytes : Table Byte 8) (s : State),
       s.settled = true → s.reader.state = .reading r →
       (∀ i k : Fin 8, (bits.get i).get k = (bytes.get i).getMsbD k) →
       result = .record bits ∨ result = .noAck .writeAddress ∨ result = .noAck .offset ∨
         result = .noAck .readAddress →
       let device : Table Bool 7 := ⟨[true, false, true, false, false, true, false], rfl⟩
       let offset : LaneBits := ⟨[false, false, false, false, false, false, false, false], rfl⟩
       let verdict : Option IdResult :=
         match result with
         | .record _ =>
           some (match validateRecord bytes with | some c => .valid c | none => .plugBad)
         | .noAck _ => if r.tryNo = 1 then none else some .plugNoack
       ∃ t, exec (.tryEnd result) s = .next t ∧ RigKept s t ∧ BoardKept s t ∧ RegsKept s t ∧
         t.writer = s.writer ∧ t.stampCounter = s.stampCounter ∧ OtherPortsKept r.port s t ∧
         t.port r.port =
           { s.port r.port with
             idResults :=
               if (s.port r.port).state = .identifying ∧ .withdrawal ∈ (s.port r.port).toReader then
                 (s.port r.port).idResults
               else (s.port r.port).idResults ++ verdict.toList } ∧
         t.acts =
           (match result with
             | .noAck .writeAddress => []
             | .noAck .offset => [.idOffset offset]
             | .noAck .readAddress => [.idOffset offset, .idStart, .idAddress device true]
             | .record _ =>
               [.idOffset offset, .idStart, .idAddress device true] ++ List.replicate 7 (.idReadByte true) ++
                 [.idReadByte false]) ++ [.idStop, .idRelease] ++
             (match verdict, s.reader.queue.tail with
               | some _, q :: _ => [.idSelect q, .idStart, .idAddress device false]
               | _, _ => []) ∧
         t.reader =
           (match verdict with
             | none => { queue := s.reader.queue, state := .retryWait r 10 }
             | some _ =>
               { queue := s.reader.queue.tail
                 state := match s.reader.queue.tail with
                   | [] => .idle
                   | q :: _ => .reading { port := q, tryNo := 1, bytes := [] } })) ∧
  (∀ (r : ReadInProgress) (s : State), s.settled = true → s.reader.state = .retryWait r 0 →
       ∃ t, exec .plugReadRetryExpiry s = .next t ∧ RigKept s t ∧ BoardKept s t ∧ RegsKept s t ∧
         t.writer = s.writer ∧ t.stampCounter = s.stampCounter ∧ PortsKept s t ∧
         t.reader = { s.reader with state := .reading { port := r.port, tryNo := 2, bytes := [] } } ∧
         t.acts =
           [.idSelect r.port, .idStart, .idAddress ⟨[true, false, true, false, false, true, false], rfl⟩ false])

/-- IDENTITY_RESULT (R74): in IDENTIFYING a valid record is stored and the port enters OFF, any other
result faults it; in any other state the result is discarded. -/
def Obligations.IdentityResultEndsIdentification : Prop :=
  ∀ (p : PortNo) (r : IdResult) (rest : List IdResult) (s : State), s.settled = true →
    (s.port p).idResults = r :: rest → (s.port p).target = .off →
    ∃ t, exec (.identityResult p) s = .next t ∧ PortAndOutcomes p s t ∧ (t.port p).idResults = rest ∧
      ((s.port p).state ≠ .identifying →
        RegsKept s t ∧ t.port p = { s.port p with idResults := rest }) ∧
      ((s.port p).state = .identifying →
        (∀ c, r = .valid c →
          CausesSet 0x02 s t ∧ (t.port p).state = .off ∧ (t.port p).classRecord = some c ∧
            (t.port p).target = .off ∧ (t.port p).stamp = (s.port p).stamp ∧
            (t.port p).endReason = (s.port p).endReason ∧ (t.port p).bootAttempts = 0 ∧
            (t.port p).tripCount = 0 ∧ (t.port p).recovery = 0 ∧
            (t.port p).profile = (s.port p).profile) ∧
        (∀ why, (r = .plugBad ∧ why = .plugBad) ∨ (r = .plugNoack ∧ why = .plugNoack) →
          CausesSet 0x06 s t ∧ (t.port p).state = .faulted why ∧ (t.port p).endReason = .fault why ∧
            (t.port p).target = .off ∧ (t.port p).classRecord = (s.port p).classRecord))

/-! ## Governor and supply -/

/-- CLAIM (R96, R100, R101): the port joins the tail of the Grant Queue, and the head claims are served
while the governor is OPEN, slots held is below BOOT_CAP and the History is below GRANT_LIMIT. That the claim
of a port that stands in the queue, or holds a slot, joins nothing is the model's choice (log entry 35): the
queue never holds a port twice (R96), and a slot holder's claim has been served (R98). -/
def Obligations.ClaimJoinsAndIsServed : Prop :=
  ∀ (p : PortNo) (rest : List GovMsg) (s : State), s.settled = true →
    (s.port p).toGovernor = .claim :: rest →
    ∃ t, exec (.claim p) s = .next t ∧ GovernorEvent s t ∧
      (∀ q, q ≠ p → (t.port q).toGovernor = (s.port q).toGovernor) ∧ (t.port p).toGovernor = rest ∧
      (p ∉ s.governor.queue → s.governor.holders.get p = false →
        PostedWhileAttached .governor s t ∧
          ∃ n, Served { s.governor with queue := s.governor.queue ++ [p] } n
            (s.modPort p fun x => { x with toGovernor := rest }) t) ∧
      (p ∈ s.governor.queue ∨ s.governor.holders.get p = true →
        t.governor = s.governor ∧ t.writer = s.writer ∧
          ∀ q, (t.port q).fromGovernor = (s.port q).fromGovernor)

/-- WITHDRAWAL (R97): the port's claim leaves the Grant Queue wherever it stands, the claims behind keep
their order, the slot is posted, and nothing is served, whatever the serving conditions; without a claim
there is no effect, and a grant taken outside QUEUED comes back as a returned grant. The claim then at the
head is served at the next serving check at which the conditions hold, as any head claim is. -/
def Obligations.WithdrawalRemovesTheClaim : Prop :=
  (∀ (p : PortNo) (rest : List GovMsg) (s : State), s.settled = true →
       (s.port p).toGovernor = .withdrawal :: rest →
       ∃ t, exec (.withdrawal p) s = .next t ∧ GovernorEvent s t ∧
         t.ports = (s.modPort p fun x => { x with toGovernor := rest }).ports ∧
         (∀ before behind, s.governor.queue = before ++ p :: behind → p ∉ before →
           t.governor = { s.governor with queue := before ++ behind } ∧
             PostedWhileAttached .governor s t) ∧
         (p ∉ s.governor.queue → t.governor = s.governor ∧ t.writer = s.writer)) ∧
  (∀ (p : PortNo) (rest : List PortMsg) (s : State), s.settled = true → (s.port p).state ≠ .queued →
       (s.port p).fromGovernor = .grant :: rest →
       ∃ t, exec (.grant p) s = .next t ∧
         (t.port p).toGovernor = (s.port p).toGovernor ++ [.returnedGrant]) ∧
  (∀ (p : PortNo) (behind : List PortNo) (s : State), s.governor.queue = p :: behind →
       s.governor.canServe = true →
       ∃ n, 1 ≤ n ∧ Served s.governor n s (servingCheck s))

/-- RELEASE and RETURNED_GRANT (R98, R102): the port leaves the slot holders and a serving check follows;
the History keeps its entries; a port that holds no slot has no effect. -/
def Obligations.ReleaseFreesTheSlot : Prop :=
  ∀ (p : PortNo) (rest : List GovMsg) (m : GovMsg) (c : Instr) (s : State), s.settled = true →
    (m = .release ∧ c = .release p) ∨ (m = .returnedGrant ∧ c = .returnedGrant p) →
    (s.port p).toGovernor = m :: rest →
    let u := s.modPort p fun x => { x with toGovernor := rest }
    ∃ t n, exec c s = .next t ∧ GovernorEvent s t ∧
      (s.governor.holders.get p = true →
        PostedWhileAttached .governor s t ∧
          Served { s.governor with holders := s.governor.holders.set p false } n u t) ∧
      (s.governor.holders.get p = false →
        t.governor = s.governor ∧ t.ports = u.ports ∧ t.writer = s.writer)

/-- GRANT (R20, R3): a QUEUED port switches its rail on and enters POWERING with the settle timer; at any
other port the grant is handed back and nothing else changes. That a grant which crossed with a withdrawal powers
a port that is QUEUED again is the model's choice (log entry 35). -/
def Obligations.GrantPowersAQueuedPort : Prop :=
  ∀ (p : PortNo) (rest : List PortMsg) (c : ClassRecord) (s : State), s.settled = true →
    (s.port p).fromGovernor = .grant :: rest →
    ((s.port p).state = .queued → (s.port p).classRecord = some c →
      ∃ t, exec (.grant p) s = .next t ∧ OnlyPort p s t ∧ CausesSet 0x02 s t ∧
        PostedWhileAttached (.port p) s t ∧ (t.port p).railOn = true ∧
        t.port p =
          { s.port p with
            fromGovernor := rest, state := .powering, stateBeat := s.cadence.beat
            timer := some (c.railSettle.toNat * 10), silence := 0, keepDue := false
            stepClaim := false, cursor := 0, restart := false }) ∧
    ((s.port p).state ≠ .queued →
      ∃ t, exec (.grant p) s = .next t ∧ OnlyPort p s t ∧ RegsKept s t ∧
        t.port p =
          { s.port p with
            fromGovernor := rest, toGovernor := (s.port p).toGovernor ++ [.returnedGrant] })

/-- GRANT_HISTORY_EXPIRY removes its entry, HOLDOFF_EXPIRY opens the governor, and each is a serving check
(R99, R107). A trip taken before the expiry of the holdoff restarts it at full length, so that the expiry
of the replaced deadline does not occur (R107, R106). -/
def Obligations.GovernorExpiriesServeOrAreReplaced : Prop :=
  (∀ (i : Fin 4) (s : State), s.settled = true →
       (s.governor.history[i.val]? = some 0 →
         ∃ t n, exec (.grantHistoryExpiry i) s = .next t ∧ GovernorEvent s t ∧
           PostedWhileAttached .governor s t ∧
           Served { s.governor with history := s.governor.history.eraseIdx i.val } n s t) ∧
       (s.governor.state = .holdoff 0 →
         ∃ t n, exec .holdoffExpiry s = .next t ∧ GovernorEvent s t ∧ PostedWhileAttached .governor s t ∧
           Served { s.governor with state := .opened } n s t)) ∧
  (∀ s : State, s.settled = true → s.rigSound = true → s.governor.state = .holdoff 0 →
       (∃ t n, exec .holdoffExpiry s = .next t ∧ Served { s.governor with state := .opened } n s t) ∧
       (0 < s.monitor.tripsHanded →
         ∃ t, exec .trip s = .next t ∧ t.governor.state = .holdoff s.governor.settings.holdoffMs ∧
           exec .holdoffExpiry t = .next t.quiet))

/-- SUPPLY_TRIP and RE_ARM (R104): the input moves; an ARMED monitor trips below TRIP_LEVEL × 0.1 V,
setting SUPPLY_TRIP and handing one trip; a TRIPPED one arms above 0.3 V more and sets nothing; any other
move changes the input alone. TRIP_LEVEL_CHANGE (R105): the monitor's copy is replaced and the supply
compared with the new levels. That one command carries the move of the input and the comparison is the
model's choice (log entry 13). -/
def Obligations.SupplyMonitorTripsAndArms : Prop :=
  (∀ (c : Instr) (mv : Nat) (s : State), s.settled = true → c = .supplyTrip mv ∨ c = .reArm mv →
       ∃ t, exec c s = .next t ∧ PortsKept s t ∧ t.pending = s.pending ∧ ClockAndLinesKept s t ∧
         GroupsKept s t ∧ t.governor = s.governor ∧ t.reader = s.reader ∧
         t.stampCounter = s.stampCounter ∧ BoardKept s t ∧ t.writer = s.writer ∧
         (if s.monitor.state = .armed ∧ mv < s.monitor.tripLevel * 100 then
             CausesSet 0x10 s t ∧
               t.monitor =
                 { s.monitor with
                   supply := mv, state := .tripped, tripsHanded := s.monitor.tripsHanded + 1 }
           else if s.monitor.state = .tripped ∧ s.monitor.tripLevel * 100 + 300 < mv then
             RegsKept s t ∧ t.monitor = { s.monitor with supply := mv, state := .armed }
           else RegsKept s t ∧ t.monitor = { s.monitor with supply := mv })) ∧
  (∀ (level : Nat) (rest : List Nat) (s : State), s.settled = true →
       s.monitor.levelsHanded = level :: rest →
       let m := { s.monitor with tripLevel := level, levelsHanded := rest }
       ∃ t, exec .tripLevelChange s = .next t ∧ PortsKept s t ∧ t.pending = s.pending ∧
         ClockAndLinesKept s t ∧ GroupsKept s t ∧ t.governor = s.governor ∧ t.reader = s.reader ∧
         t.stampCounter = s.stampCounter ∧ BoardKept s t ∧ t.writer = s.writer ∧
         (if m.state = .armed ∧ m.supply < level * 100 then
             CausesSet 0x10 s t ∧
               t.monitor = { m with state := .tripped, tripsHanded := m.tripsHanded + 1 }
           else if m.state = .tripped ∧ level * 100 + 300 < m.supply then
             RegsKept s t ∧ t.monitor = { m with state := .armed }
           else RegsKept s t ∧ t.monitor = m))

/-- TRIP (R106): a trip cut to every slot holder and to no other port, the holdoff set or set anew to
HOLDOFF_MS, the queue, the History and the holders left as they are. -/
def Obligations.TripCutsTheSlotHolders : Prop :=
  ∀ s : State, s.settled = true → 0 < s.monitor.tripsHanded →
    ∃ t, exec .trip s = .next t ∧
      (∀ p, t.port p =
        { s.port p with
          fromGovernor := (s.port p).fromGovernor ++
            (if s.governor.holders.get p = true then [.tripCut] else []) }) ∧
      t.governor = { s.governor with state := .holdoff s.governor.settings.holdoffMs } ∧
      t.monitor = { s.monitor with tripsHanded := s.monitor.tripsHanded - 1 } ∧
      PostedWhileAttached .governor s t ∧ OtherSlotsKept .governor s t ∧ t.pending = s.pending ∧
      ClockAndLinesKept s t ∧ GroupsKept s t ∧ t.reader = s.reader ∧
      t.stampCounter = s.stampCounter ∧ BoardKept s t ∧ RegsKept s t

/-- TRIP_CUT (R34): a warming port goes back to QUEUED with TRIPPED, its release before its claim, or
faults with SUPPLY at the third; any other port is left alone. -/
def Obligations.TripCutRequeuesTwice : Prop :=
  ∀ (p : PortNo) (rest : List PortMsg) (s : State), s.settled = true →
    (s.port p).fromGovernor = .tripCut :: rest →
    ∃ t, exec (.tripCut p) s = .next t ∧ PortAndOutcomes p s t ∧ (t.port p).fromGovernor = rest ∧
      ((s.port p).state.isWarming = false →
        RegsKept s t ∧ BoardKept s t ∧ t.port p = { s.port p with fromGovernor := rest }) ∧
      ((s.port p).state.isWarming = true →
        (s.port p).cableKept (t.port p) ∧ (t.port p).tripCount = (s.port p).tripCount + 1 ∧
          (t.port p).bootAttempts = (s.port p).bootAttempts ∧
          (t.port p).recovery = (s.port p).recovery ∧ (t.port p).stale = (s.port p).stale ∧
          (if (s.port p).tripCount < 2 then QueuedEntered p .tripped [.release, .claim] s t
            else FaultEntered p .supply s t ∧
              (t.port p).toGovernor = (s.port p).toGovernor ++ [.release]))


/-! ## The chain -/

/-- HEADER_READ_COMPLETE (R115, R116). A good header: the anchor and the counts are kept where an anchor
is present and start afresh where none is, a header write and a look follow the kept writes, the walker is
WATCHING, and every slot of the Status Page is to be written: ports 0 to 15, lines 0 to 7, the governor (R180).
That WATCHING is entered at once, before kept writes are made, is the model's choice (log entry 38). A bad header:
HALTED(BAD_HEADER). -/
def Obligations.HeaderReadsAttachOrHalt : Prop :=
  allSlots =
      ([0, 1, 2, 3, 4, 5, 6, 7, 8, 9, 10, 11, 12, 13, 14, 15] : List PortNo).map Slot.port ++
        ([0, 1, 2, 3, 4, 5, 6, 7] : List LineNo).map Slot.line ++ [.governor] ∧
  ∀ (b : BusAccess) (a : Addr) (data : Table Byte 64) (s : State), s.settled = true →
    s.reading b (.headerRead a) → s.walker.state.attached = false →
    ∃ t, exec (.headerReadComplete data) s = .next t ∧ OnlyBoard s t ∧ t.inflight = s.inflight ∧
      (headerGood data = true →
        RegsKept s t ∧
        WalkerNow
          { s.walker with
            state := .watching, lookAgain := false
            board := some { header := a, statusPage := BitVec.ofNat 64 (fieldAt data 16 8) }
            anchor := if s.walker.anchor = .absent then .header else s.walker.anchor
            takenCount := if s.walker.anchor = .absent then 0 else s.walker.takenCount
            finishedCount := if s.walker.anchor = .absent then 0 else s.walker.finishedCount }
          (withHeaderWrite s.walker.accesses ++ [.linkRead]) t ∧
        (s.writer.current ≠ none →
          t.writer = { s.writer with posting := allSlots }) ∧
        (s.writer.current = none →
          t.writer.posting = allSlots.tail ∧ t.writer.current.map (·.slot) = some (.port 0) ∧
            t.writer.serialOf (.port 0) = (s.writer.serialOf (.port 0) + 1) % 2 ^ 16 ∧
            ∀ x, x ≠ .port 0 → t.writer.serialOf x = s.writer.serialOf x)) ∧
      (headerGood data = false →
        HaltedWith .badHeader s t ∧ t.walker.current = none ∧
          t.walker.accesses = s.walker.accesses.filter fun x => !x.isRead)

/-- LINK_READ_COMPLETE (R118, R119): a link of 0 leaves the walker WATCHING, with a link read at once
where a look was asked for; a link that is not a multiple of 64 halts it with BAD_LINK; any other is
fetched. -/
def Obligations.LinkReadsFetchWatchOrHalt : Prop :=
  ∀ (b : BusAccess) (link : Addr) (s : State), s.settled = true → s.reading b .linkRead →
    s.walker.state = .watching ∨ s.walker.state = .fetching →
    ∃ t, exec (.linkReadComplete link) s = .next t ∧ OnlyBoard s t ∧ t.inflight = s.inflight ∧
      (link = 0 →
        RegsKept s t ∧ t.writer = s.writer ∧
          WalkerNow { s.walker with state := .watching, lookAgain := false }
            (s.walker.accesses ++ (if s.walker.lookAgain then [.linkRead] else [])) t) ∧
      (link.toNat % 64 ≠ 0 →
        HaltedWith .badLink s t ∧ t.walker.current = none ∧
          t.walker.accesses = s.walker.accesses.filter fun x => !x.isRead) ∧
      (link ≠ 0 → link.toNat % 64 = 0 →
        RegsKept s t ∧ t.writer = s.writer ∧
          WalkerNow { s.walker with state := .fetching } (s.walker.accesses ++ [.blockRead link]) t)

/-- BLOCK_READ_COMPLETE (R120, R132): an EMPTY block leaves the walker WATCHING at its anchor, with a link
read at once where a look was asked for; a state other than EMPTY and POSTED halts it with BAD_STATE; a
POSTED block is taken, and one that fails a check of Table 8-2 is REFUSED with the first reason that applies,
and nothing but the walker changes. -/
def Obligations.BlockReadsWatchHaltOrRefuse : Prop :=
  ∀ (b : BusAccess) (a : Addr) (data : Table Byte 64) (s : State), s.settled = true →
    s.walker.state = .fetching → s.reading b (.blockRead a) →
    ∃ t, exec (.blockReadComplete data) s = .next t ∧
      (numAt data 8 = 0 →
        OnlyBoard s t ∧ t.inflight = s.inflight ∧ RegsKept s t ∧ t.writer = s.writer ∧
          WalkerNow { s.walker with state := .watching, lookAgain := false, copy := none }
            (s.walker.accesses ++ (if s.walker.lookAgain then [.linkRead] else [])) t) ∧
      (2 ≤ numAt data 8 →
        OnlyBoard s t ∧ t.inflight = s.inflight ∧ HaltedWith .badState s t ∧ t.walker.copy = none ∧
          t.walker.current = none ∧
          t.walker.accesses = s.walker.accesses.filter fun x => !x.isRead) ∧
      (numAt data 8 = 1 →
        let copy : FetchedCopy := { address := a, data := data }
        t =
          settle
            (takeCopy copy
              { s with acts := [], walker := { s.walker with current := none, copy := some copy } })) ∧
      (numAt data 8 = 1 → ∀ r, refusalOf data s = some r →
        OnlyBoard s t ∧ t.inflight = s.inflight ∧ RegsKept s t ∧ t.writer = s.writer ∧
          Took { address := a, data := data } (.refused r) [] [] s t)

/-- A valid SET_GROUP defines or removes its group, a valid BIND_INPUT sets or removes its line's binding, by the
action and edge codes of Table 10-3,
and an accepted SET_RIG stores each given setting, hands a given TRIP_LEVEL to the monitor and makes a
given beat length pending (R94, R148, R149, R155, R168, R175). Each is DONE with sixteen outcomes NONE. -/
def Obligations.ConfigurationRequestsTakeEffect : Prop :=
  ∀ (b : BusAccess) (a : Addr) (data : Table Byte 64) (s : State), s.settled = true →
    s.walker.state = .fetching → s.reading b (.blockRead a) → numAt data 8 = 1 → 7 ≤ numAt data 9 →
    refusalOf data s = none →
    ∃ t, exec (.blockReadComplete data) s = .next t ∧ t.pending = s.pending ∧ PortsKept s t ∧
      t.reader = s.reader ∧ t.stampCounter = s.stampCounter ∧ t.inflight = s.inflight ∧ RegsKept s t ∧
      t.writer = s.writer ∧ t.lines = s.lines ∧ t.pool = s.pool ∧
      Took { address := a, data := data } (.done (Table.replicate 16 .none)) [] [] s t ∧
      (numAt data 9 = 7 →
        t.cadence = s.cadence ∧ SupplyKept s t ∧ t.bindings = s.bindings ∧
          ∀ g, t.group g =
              { s.group g with defn := if g.val = numAt data 20 then (t.group g).defn else (s.group g).defn } ∧
            (g.val = numAt data 20 →
              if numAt data 21 = 0 then (t.group g).defn = none
              else ∃ d, (t.group g).defn = some d ∧ d.lead = numAt data 22 ∧
                d.members.map (·.val) =
                  (List.range (numAt data 21)).map fun i => numAt data (23 + i))) ∧
      (numAt data 9 = 8 →
        t.cadence = s.cadence ∧ SupplyKept s t ∧ t.groups = s.groups ∧
          ∀ n, (n.val ≠ numAt data 20 → t.binding n = s.binding n) ∧
            (n.val = numAt data 20 →
              if numAt data 21 = 2 then t.binding n = none
              else ∃ x, t.binding n = some x ∧ x.group.val = numAt data 22 ∧
                numAt data 23 =
                  (match x.action with | .wake => 1 | .pause => 2 | .resume => 3 | .sleep => 4) ∧
                numAt data 24 = (match x.edge with | .rise => 1 | .fall => 2 | .both => 3) ∧
                x.stagger = numAt data 25)) ∧
      (numAt data 9 = 9 →
        t.groups = s.groups ∧ t.bindings = s.bindings ∧
          let old := s.governor.settings
          let given (bit off size keep : Nat) : Nat :=
            if (byteAt data 20).getLsbD bit then fieldAt data off size else keep
          t.governor =
              { s.governor with
                settings :=
                  { grantLimit := given 0 21 1 old.grantLimit
                    windowMs := given 1 24 2 old.windowMs
                    bootCap := given 2 22 1 old.bootCap
                    holdoffMs := given 3 26 2 old.holdoffMs
                    tripLevel := given 4 23 1 old.tripLevel } } ∧
            t.monitor =
              { s.monitor with
                levelsHanded := s.monitor.levelsHanded ++
                  (if (byteAt data 20).getLsbD 4 then [fieldAt data 23 1] else []) } ∧
            t.cadence =
              { s.cadence with
                pendingBeatMs :=
                  if (byteAt data 20).getLsbD 5 then some (fieldAt data 28 2)
                  else s.cadence.pendingBeatMs })

/-- A valid CLEAR (R8, R147): a named port faulted over its plug is read again and one faulted for another
reason goes to OFF, both answered CLEARED; any other named port answers NOT_FAULTED and does not change. The
joins that one CLEAR hands have one ticket, behind every join handed before, and so no order among themselves:
the model's choice (log entry 43). -/
def Obligations.ClearRequestsAnswerEveryPort : Prop :=
  ∀ (b : BusAccess) (a : Addr) (data : Table Byte 64) (s : State), s.settled = true →
    s.portsSound = true → s.walker.state = .fetching → s.reading b (.blockRead a) →
    numAt data 8 = 1 → numAt data 9 = 5 → refusalOf data s = none →
    ∃ t outs, exec (.blockReadComplete data) s = .next t ∧ RigKept s t ∧ t.reader = s.reader ∧
      t.stampCounter = s.stampCounter ∧ t.inflight = s.inflight ∧
      Took { address := a, data := data } (.done outs) [] [] s t ∧
      (∀ p, outs.get p =
        if (fieldAt data 16 2).testBit p.val then
          (if (s.port p).state.isFaulted then .cleared else .notFaulted)
        else .none) ∧
      (∀ p, t.port p =
        if (fieldAt data 16 2).testBit p.val then
          (s.port p).cleared s.cadence.beat s.nextTicket
        else s.port p) ∧
      (if (allPorts.any fun p => (fieldAt data 16 2).testBit p.val && (s.port p).state.isFaulted) then
          CausesSet 0x02 s t
        else RegsKept s t)

/-- A valid WAKE, PAUSE, RESUME or SLEEP without a stagger (R137 to R141): with no port to wait it is DONE
in the take with every answer; with some port to wait it is TAKEN into the free entry with the lowest
number, where the ports that wait are pending, or, with no entry free, the walker is STALLED with its copy
and nothing else changes. That the DONE writes of requests that these target sets end stand before the take's
own block write is the model's choice (log entry 16). -/
def Obligations.PortTargetsCompleteDispatchOrStall : Prop :=
  ∀ (b : BusAccess) (a : Addr) (data : Table Byte 64) (s : State), s.settled = true →
    s.requestsSound = true → s.walker.state = .fetching → s.reading b (.blockRead a) →
    numAt data 8 = 1 → numAt data 9 ≤ 4 → numAt data 18 = 0 → refusalOf data s = none →
    let ps := requestPorts data s
    let ts := requestSet data
    let waits (p : PortNo) : Bool := decide (p ∈ ps) && answerTo (s.port p) ts == .waiting
    let copy : FetchedCopy := { address := a, data := data }
    ∃ t, exec (.blockReadComplete data) s = .next t ∧ RigKept s t ∧ t.reader = s.reader ∧
      RegsKeptButAttn s t ∧
      (allPorts.any waits = false →
        TargetsHanded ps ts none s t ∧
          (∀ e, (∀ p ∈ ps, e ∉ (s.port p).waiters) → t.entry e = s.entry e) ∧
          ∃ outs before, before.all Access.finishes = true ∧
            Took copy (.done outs) before [] s t ∧ ∀ p, outs.get p = decidedAt ps ts s p) ∧
      (∀ e, allPorts.any waits = true → s.entry e = none → (∀ f, f < e → s.entry f ≠ none) →
        TargetsHanded ps ts (some e) s t ∧
          (∀ f, f ≠ e → (∀ p ∈ ps, f ∉ (s.port p).waiters) → t.entry f = s.entry f) ∧
          (∃ before, before.all Access.finishes = true ∧ Took copy .taken before [] s t) ∧
          ∃ x, t.entry e = some x ∧ x.block = a ∧ x.notify = flagAt data 2 ∧ x.status = .opened ∧
            ∀ p, x.pending.get p = waits p ∧ x.outcomes.get p = decidedAt ps ts s p) ∧
      (allPorts.any waits = true → (∀ f, s.entry f ≠ none) →
        OnlyBoard s t ∧ t.inflight = s.inflight ∧ RegsKept s t ∧ t.writer = s.writer ∧
          WalkerNow { s.walker with state := .stalled, copy := some copy } s.walker.accesses t)

/-- A valid WAKE, PAUSE, RESUME or SLEEP to a group with a stagger (R142, R156 to R161): it takes the free entry
and the free sweep record with the lowest numbers, every member is pending, and the lead is visited in the take,
drawing a stamp where it takes its target set; with either lacking the walker is STALLED and nothing else
changes. That the DONE writes of other requests stand before the TAKEN write, and its own behind it, is the
model's choice (log entry 16). -/
def Obligations.StaggeredRequestsStartASweep : Prop :=
  ∀ (b : BusAccess) (a : Addr) (data : Table Byte 64) (s : State), s.settled = true →
    s.requestsSound = true → s.walker.state = .fetching → s.reading b (.blockRead a) →
    numAt data 8 = 1 → numAt data 9 ≤ 4 → numAt data 18 ≠ 0 → refusalOf data s = none →
    let ts := requestSet data
    let copy : FetchedCopy := { address := a, data := data }
    ∃ t, exec (.blockReadComplete data) s = .next t ∧ t.pending = s.pending ∧ ClockAndLinesKept s t ∧
      SupplyKept s t ∧ t.reader = s.reader ∧ t.bindings = s.bindings ∧ RegsKeptButAttn s t ∧
      (∀ e r g d p, s.entry e = none → (∀ f, f < e → s.entry f ≠ none) →
        s.sweep r = none → (∀ q, q < r → s.sweep q ≠ none) →
        g.val = fieldAt data 16 2 → (s.group g).defn = some d → d.members[d.lead]? = some p →
        let answer : Answer :=
          if stampNewer (s.port p).stamp s.stampCounter then .decided .superseded
          else answerTo (s.port p) ts
        OtherPortsKept p s t ∧
          t.port p =
            (if stampNewer (s.port p).stamp s.stampCounter then s.port p
              else (targetSet p ts (some e) s).2.port p) ∧
          t.stampCounter =
            (if stampNewer (s.port p).stamp s.stampCounter = true ∨ (declines (s.port p) ts).isSome = true then
                s.stampCounter
              else s.stampCounter + 1) ∧
          (∀ q, q ≠ r → t.sweep q = s.sweep q) ∧
          (∀ h, h ≠ g → t.group h = s.group h) ∧
          (∀ f, f ≠ e → f ∉ (s.port p).waiters → t.entry f = s.entry f) ∧
          (∃ x, t.entry e = some x ∧ x.block = a ∧ x.notify = flagAt data 2 ∧
            (∀ q, x.pending.get q =
              (decide (q ∈ d.members) && (decide (q ≠ p) || answer == .waiting))) ∧
            (∀ q, x.outcomes.get q =
              if q = p then (match answer with | .decided o => o | .waiting => .none) else .none) ∧
            x.status = (if d.members.length = 1 ∧ answer ≠ .waiting then .held else .opened)) ∧
          (∃ before behind, before.all Access.finishes = true ∧ behind.all Access.finishes = true ∧
            behind.length = (if d.members.length = 1 ∧ answer ≠ .waiting then 1 else 0) ∧
            Took copy .taken before behind s t) ∧
          (d.members.length = 1 → t.sweep r = none ∧ t.group g = s.group g) ∧
          (1 < d.members.length →
            t.group g = { s.group g with active := (s.group g).active + 1 } ∧
              t.sweep r =
                some
                  { group := g, action := ts, origin := .request e, startStamp := s.stampCounter
                    cursor := if d.lead + 1 < d.members.length then d.lead + 1 else 0
                    remaining := d.members.length - 1, stagger := numAt data 18
                    beatsUntil := numAt data 18, stepsOwed := 0 })) ∧
      ((∀ f, s.entry f ≠ none) ∨ (∀ q, s.sweep q ≠ none) →
        OnlyBoard s t ∧ t.inflight = s.inflight ∧ RegsKept s t ∧ t.writer = s.writer ∧
          WalkerNow { s.walker with state := .stalled, copy := some copy } s.walker.accesses t)

/-! ## Target sets -/

/-- What a port answers to a target set (Table 8-5), and that one it declines changes nothing at all while
one it takes draws a stamp, which the port stores with the target (R10 to R12). Waiters of another target receive
SUPERSEDED; those of the same target receive REACHED where the set reaches it in the event, as a SLEEP with CUT does
at a port on its way to OFF, and wait on elsewhere (R12, R14, R33). ALREADY sets the recovery count to 0 (R12). -/
def Obligations.TargetSetsAnswerByTable85 : Prop :=
  ∀ (p : PortNo) (ts : TargetSet) (ref : Option EntryNo) (s : State),
    let x := s.port p
    let r := targetSet p ts ref s
    let declined : Bool :=
      x.state.isAbsent || x.state.isFaulted || (ts.resume && decide (x.target ≠ .paused))
    (x.state.isAbsent = true → r.1 = .decided .noCamera) ∧
      (x.state.isFaulted = true → r.1 = .decided .isFaulted) ∧
      (x.state.isAbsent = false → x.state.isFaulted = false → ts.resume = true → x.target ≠ .paused →
        r.1 = .decided .notPaused) ∧
      (declined = true → r.2 = s) ∧
      (declined = false →
        r.1 =
            (if x.state = ts.target.goal then .decided .already
              else if ts.target = .off ∧
                  (x.state = .queued ∨ x.state = .powering ∨ x.state = .booting ∨
                    (ts.cut = true ∧ x.railOn = true)) then .decided .reached
              else .waiting) ∧
          r.2.stampCounter = s.stampCounter + 1 ∧ (r.2.port p).stamp = s.stampCounter + 1 ∧
          (r.2.port p).target = ts.target ∧ OtherPortsKept p s r.2 ∧
          (r.1 = .waiting →
            (r.2.port p).waiters =
              (if ts.target = x.target then x.waiters else []) ++ ref.toList) ∧
          (r.1 = .waiting → (ts.cut = true → ts.target = .off) → (r.2.port p).recovery = x.recovery) ∧
          (r.1 = .decided .already →
            (r.2.port p).recovery = 0 ∧
              (r.2.port p).waiters = if ts.target = x.target then x.waiters else []) ∧
          (r.1 = .decided .reached → (r.2.port p).waiters = [] ∧ (r.2.port p).recovery = 0) ∧
          (ts.target ≠ x.target → WaitersReceive p .superseded s r.2) ∧
          (ts.target = x.target →
            if r.1 = .decided .reached then WaitersReceive p .reached s r.2
            else r.2.inflight = s.inflight))

/-- What a target set that is taken does to the port (Table 1-3, R4, R15, R17, R33). In an alive state it leaves the
lane as it is while a phrase is on it, or where it calls for the same step phrase as the target before, and raises the
step claim where it calls for another (R15, R62). -/
def Obligations.TargetSetsActByTable13 : Prop :=
  ∀ (p : PortNo) (ts : TargetSet) (ref : Option EntryNo) (s : State), declines (s.port p) ts = none →
    let x := s.port p
    let t := (targetSet p ts ref s).2
    let toOff (why : EndReason) (told : List GovMsg) : Prop :=
      (t.port p).state = .off ∧ (t.port p).endReason = why ∧ (t.port p).waiters = [] ∧
        (t.port p).bootAttempts = 0 ∧ (t.port p).tripCount = 0 ∧ (t.port p).recovery = 0 ∧
        (t.port p).toGovernor = x.toGovernor ++ told ∧ (t.port p).stateBeat = s.cadence.beat ∧
        (t.port p).timer = none ∧ (t.port p).silence = 0 ∧ CausesSet 0x02 s t
    let stays : Prop :=
      (t.port p).state = x.state ∧ (t.port p).endReason = x.endReason ∧
        (t.port p).toGovernor = x.toGovernor ∧ (t.port p).stateBeat = x.stateBeat ∧ RegsKept s t
    (x.state = .off → ts.target ≠ .off →
      (t.port p).state = .queued ∧ (t.port p).toGovernor = x.toGovernor ++ [.claim] ∧
        (t.port p).endReason = x.endReason ∧ CausesSet 0x02 s t) ∧
      (x.state = .queued → ts.target = .off → toOff x.endReason [.withdrawal]) ∧
      (x.state = .powering ∨ x.state = .booting → ts.target = .off →
        toOff (if ts.cut then .cut else .cancelled) [.release] ∧ (t.port p).lane = .closed) ∧
      (x.state.isAlive = true ∨ x.state = .stopping → ts.target = .off → ts.cut = true →
        toOff .cut [] ∧ (t.port p).lane = .closed) ∧
      (x.state.isAlive = true ∨ x.state = .stopping → ts.cut = false → stays) ∧
      (x.state = .queued ∨ x.state = .powering ∨ x.state = .booting → ts.target ≠ .off → ts.cut = false →
        stays ∧ (t.port p).timer = x.timer ∧ (t.port p).lane = x.lane) ∧
      (x.state = .stopping → ts.cut = false → (t.port p).timer = x.timer ∧ (t.port p).lane = x.lane) ∧
      (x.state = .pausing → ts.cut = false →
        (t.port p).timer =
          (if ts.target = .paused then
              (if x.timer.isSome ∨ x.lane.stepInFlight then x.timer else some 1000)
            else none)) ∧
      (∀ c, x.state = .resuming → ts.cut = false → x.classRecord = some c →
        (t.port p).timer =
          (if ts.target = .awake then
              (if x.timer.isSome ∨ x.lane.stepInFlight then x.timer
                else some (c.resumeLimit.toNat * 10))
            else none)) ∧
      (x.state.isAlive = true → ts.cut = false →
        x.lane ≠ .free ∨ stepCall x.state ts.target = stepCall x.state x.target →
        (t.port p).lane = x.lane ∧
          (t.port p).stepClaim =
            (x.stepClaim ||
              decide (stepCall x.state ts.target ≠ stepCall x.state x.target) &&
                (stepCall x.state ts.target).isSome)) ∧
      (x.state = .ready ∨ x.state = .pausing ∨ x.state = .paused ∨ x.state = .resuming → ts.cut = false →
        x.lane = .free → x.keepDue = false → stepCall x.state ts.target ≠ stepCall x.state x.target →
        (t.port p).lane =
          (match x.state, ts.target with
            | _, .off => .sending (newPhrase .halt []) 2
            | .ready, .paused => .sending (newPhrase .hold []) 2
            | .resuming, .paused => .sending (newPhrase .hold []) 2
            | .pausing, .awake => .sending (newPhrase .release []) 2
            | .paused, .awake => .sending (newPhrase .release []) 2
            | _, _ => .free))

/-! ## Profiles -/

/-- SET_PROFILE (R90, R91). As its block has been read, a count of 0 stores no profile and a count of 1 to
12 reads the list, 4 bytes an entry, with nothing else changed. PROFILE_LIST_READ_COMPLETE: a list whose
slots are at most 31 and distinct is handed to every named port, each answered STORED; any other is
refused with BAD_PROFILE. -/
def Obligations.ProfileRequestsReadAndStoreTheirList : Prop :=
  let stored (c : FetchedCopy) (list : Profile) (s t : State) : Prop :=
    RigKept s t ∧ t.reader = s.reader ∧ t.stampCounter = s.stampCounter ∧ t.inflight = s.inflight ∧
      RegsKept s t ∧ t.writer = s.writer ∧
      (∀ p, t.port p =
        { s.port p with
          replacements := (s.port p).replacements ++
            (if (fieldAt c.data 16 2).testBit p.val then [list] else []) }) ∧
      ∃ outs, Took c (.done outs) [] [] s t ∧
        ∀ p, outs.get p = if (fieldAt c.data 16 2).testBit p.val then .stored else .none
  (∀ (b : BusAccess) (a : Addr) (data : Table Byte 64) (s : State), s.settled = true →
       s.walker.state = .fetching → s.reading b (.blockRead a) → numAt data 8 = 1 →
       numAt data 9 = 6 → refusalOf data s = none →
       let copy : FetchedCopy := { address := a, data := data }
       ∃ t, exec (.blockReadComplete data) s = .next t ∧
         (numAt data 28 = 0 → stored copy [] s t) ∧
         (numAt data 28 ≠ 0 →
           OnlyBoard s t ∧ t.inflight = s.inflight ∧ RegsKept s t ∧ t.writer = s.writer ∧
             WalkerNow { s.walker with copy := some copy }
               (s.walker.accesses ++
                 [.listRead (BitVec.ofNat 64 (fieldAt data 20 8)) (numAt data 28)]) t)) ∧
  (∀ (b : BusAccess) (a : Addr) (n : Nat) (c : FetchedCopy) (list : Profile) (data : List Byte) (s : State),
       s.settled = true → s.walker.state = .fetching → s.reading b (.listRead a n) →
       s.walker.copy = some c → data.length = 4 * n → list.length = n →
       (∀ i, i < n →
         list[i]? =
           some
             { slot := data.getD (4 * i) 0
               value := data.getD (4 * i + 3) 0 ++ data.getD (4 * i + 2) 0 }) →
       ∃ t, exec (.profileListReadComplete data) s = .next t ∧
         ((∀ e ∈ list, e.slot.toNat ≤ 31) → (list.map (·.slot)).Nodup → stored c list s t) ∧
         (¬((∀ e ∈ list, e.slot.toNat ≤ 31) ∧ (list.map (·.slot)).Nodup) →
           OnlyBoard s t ∧ t.inflight = s.inflight ∧ RegsKept s t ∧ t.writer = s.writer ∧
             Took c (.refused .badProfile) [] [] s t))

/-- PROFILE_REPLACEMENT (R85 to R89, Table 5-2): the list is stored in every state; no stamp is drawn and
no target changes; the port tunes anew, at once or when the phrase in flight has ended, by its state and
its lane. That a list of no entries at a port that then enters READY gives the waiters of target AWAKE their REACHED
(R14, R87), beside R85's words that a replacement gives no outcome, is the model's choice (log entry 41). -/
def Obligations.ReplacementsActByState : Prop :=
  ∀ (p : PortNo) (list : Profile) (more : List Profile) (s : State), s.settled = true →
    s.portsSound = true → (s.port p).replacements = list :: more →
    let x := s.port p
    let y : Port := { x with replacements := more, profile := list }
    ∃ t, exec (.profileReplacement p) s = .next t ∧ PortAndOutcomes p s t ∧
      (t.port p).profile = list ∧ (t.port p).target = x.target ∧ (t.port p).stamp = x.stamp ∧
      (x.state.isAlive = false ∧ x.state ≠ .stopping →
        OnlyPort p s t ∧ RegsKept s t ∧ t.port p = y) ∧
      (x.state = .pausing ∨ x.state = .paused ∨ x.state = .resuming ∨ x.state = .stopping →
        OnlyPort p s t ∧ RegsKept s t ∧ t.port p = { y with stale := true }) ∧
      (x.state = .tuning → x.lane.carries .set = true →
        OnlyPort p s t ∧ RegsKept s t ∧ t.port p = { y with stale := true, restart := true }) ∧
      (x.state = .tuning → x.lane.carries .set = false → x.lane ≠ .free → list ≠ [] →
        OnlyPort p s t ∧ RegsKept s t ∧
          t.port p = { y with stale := true, cursor := 0, stepClaim := true }) ∧
      (∀ e es, x.state = .tuning → x.lane = .free → x.keepDue = false → list = e :: es →
        OnlyPort p s t ∧ RegsKept s t ∧
          t.port p =
            { y with stale := true, cursor := 0, stepClaim := false, lane := y.tuningLane e }) ∧
      (x.state = .tuning → x.lane.carries .set = false → list = [] →
        CausesSet 0x02 s t ∧ (t.port p).state = .ready ∧ (t.port p).stale = false ∧
          (t.port p).cursor = 0 ∧ (t.port p).silence = x.silence ∧
          (if x.target = .awake then WaitersReceive p .reached s t else t.inflight = s.inflight)) ∧
      (x.state = .ready → x.lane.phrase?.isSome = true →
        OnlyPort p s t ∧ RegsKept s t ∧ t.port p = { y with stale := true }) ∧
      (∀ e es, x.state = .ready → x.lane = .free → x.keepDue = false → list = e :: es →
        OnlyPort p s t ∧ CausesSet 0x02 s t ∧
          t.port p = { y.nowTuning s.cadence.beat e with silence := x.silence }) ∧
      (x.state = .ready → x.lane.phrase?.isSome = false → x.lane ≠ .free → list ≠ [] →
        OnlyPort p s t ∧ CausesSet 0x02 s t ∧ (t.port p).state = .tuning ∧ (t.port p).cursor = 0 ∧
          (t.port p).stale = true ∧ (t.port p).stepClaim = true ∧ (t.port p).lane = x.lane) ∧
      (x.state = .ready → x.lane.phrase?.isSome = false → list = [] →
        CausesSet 0x02 s t ∧ (t.port p).state = .ready ∧ (t.port p).stale = false ∧
          (t.port p).stateBeat = s.cadence.beat ∧ (t.port p).silence = x.silence ∧
          (if x.target = .awake then WaitersReceive p .reached s t else t.inflight = s.inflight))

/-! ## Writes of the board and the Status Page -/

/-- BLOCK_WRITE_COMPLETE (R117, R121 to R123): the parts land in order. A TAKEN write does nothing else
but release its take's copy. A DONE or REFUSED write raises the finished count, lets a header write report
it, sets REQUEST_DONE with NOTIFY and frees its entry, in DETACHING with nothing else due too; a STALLED
walker then takes its copy again, as if it had just been read. A TAKEN write is made while its entry is
occupied (R139). -/
def Obligations.BlockWritesFinishRequests : Prop :=
  (∀ (b : BusAccess) (w : BlockWrite) (s : State), s.settled = true →
       s.walker.current = some b → b.access = .blockWrite w →
       w.form ≠ .taken ∨ s.walker.state ≠ .detaching ∨ s.walker.accesses ≠ [] ∨
         s.inflight.items.any (·.isSome) = true →
       s.walker.state ≠ .stalled ∨ w.form = .taken ∨ w.entry = none →
       ∃ t, exec .blockWriteComplete s = .next t ∧ OnlyBoard s t ∧ t.writer = s.writer ∧
         t.acts = b.parts.map (fun x => .busWrite x.1 x.2) ∧
         t.walker.copy = (if w.ofTake then none else s.walker.copy) ∧
         (w.form = .taken →
           RegsKept s t ∧ t.inflight = s.inflight ∧ t.walker.due = s.walker.accesses ∧
             t.walker =
               { s.walker with
                 accesses := t.walker.accesses, current := t.walker.current, copy := t.walker.copy }) ∧
         (w.form ≠ .taken →
           (if w.notify then CausesSet 0x01 s t else RegsKept s t) ∧
             t.walker.due = withHeaderWrite s.walker.accesses ∧
             t.walker =
               { s.walker with
                 accesses := t.walker.accesses, current := t.walker.current, copy := t.walker.copy
                 finishedCount := s.walker.finishedCount + 1 } ∧
             ∀ e, t.entry e = if w.entry = some e then none else s.entry e)) ∧
  (∀ (b : BusAccess) (w : BlockWrite) (e : EntryNo) (c : FetchedCopy) (s : State),
       s.walker.state = .stalled → s.walker.copy = some c → numAt c.data 8 = 1 →
       s.walker.current = some b → b.access = .blockWrite w → w.ofTake = false → w.form ≠ .taken →
       w.entry = some e →
       let fetched : State :=
         { s with
           inflight := s.inflight.set e none
           regs := { s.regs with attn := s.regs.attn ||| (if w.notify then 1 else 0) }
           walker :=
             { s.walker with
               finishedCount := s.walker.finishedCount + 1
               accesses := withHeaderWrite s.walker.accesses
               current :=
                 some
                   { access := .blockRead c.address, read := some (c.address, 64), parts := []
                     atHalt := false } } }
       ∃ t v, exec .blockWriteComplete s = .next t ∧
         exec (.blockReadComplete c.data) fetched = .next v ∧ t = { v with acts := t.acts })

/-- HEADER_WRITE_COMPLETE (R117, R125): the write lands and the next access begins; with nothing left in
DETACHING the walker enters DETACHED with DETACHED set. SLOT_WRITE_COMPLETE (R178, R179): the parts land
in order, and the next slot of the posting list begins with its serial one higher. -/
def Obligations.HeaderAndSlotWritesLand : Prop :=
  (∀ (b : BusAccess) (s : State), s.settled = true → s.walker.current = some b →
       b.access = .headerWrite →
       ∃ t, exec .headerWriteComplete s = .next t ∧ OnlyBoard s t ∧ t.inflight = s.inflight ∧
         t.acts = b.parts.map (fun x => .busWrite x.1 x.2) ∧
         (s.walker.state ≠ .detaching ∨ s.walker.accesses ≠ [] ∨ s.inflight.items.any (·.isSome) = true →
           RegsKept s t ∧ t.writer = s.writer ∧ WalkerKeptButAccesses s t ∧
             t.walker.due = s.walker.accesses) ∧
         (s.walker.state = .detaching → s.walker.accesses = [] →
           s.inflight.items.all (·.isNone) = true →
           CausesSet 0x40 s t ∧
             t.walker =
               { s.walker with
                 state := .detached, anchor := .absent, copy := none, lookAgain := false
                 current := none } ∧
             t.writer =
               { s.writer with
                 posting := [], current := s.writer.current.map fun w => { w with orphan := true } })) ∧
  (∀ (w : SlotWrite) (s : State), s.settled = true → s.writer.current = some w →
       ∃ t, exec .slotWriteComplete s = .next t ∧ OnlyBoard s t ∧ BoardKept s t ∧ RegsKept s t ∧
         t.acts = w.parts.map (fun x => .busWrite x.1 x.2) ∧
         (s.writer.posting = [] → t.writer = { s.writer with current := none }) ∧
         (∀ x rest page, s.writer.posting = x :: rest → s.walker.board = some page →
           t.writer =
             { (s.writer.raiseSerial x) with
               posting := rest
               current :=
                 some
                   { slot := x, parts := slotParts page.statusPage (s.writer.raiseSerial x) x s
                     orphan := false } }))

/-- ACCESS_FAILURE (R126, R127). Of the walker: HALTED(BUS), with a failed write kept at the head of the
list and reads removed; an access that was in progress at an entry to HALTED leaves the halt reason and
the causes as they are. Of the Status Writer: HALTED(BUS), or nothing for a write in progress at an entry
to DETACHED or HALTED. That no part of a failed write lands is the model's choice (log entry 36). -/
def Obligations.FailedAccessesHaltWithBus : Prop :=
  (∀ (b : BusAccess) (s : State), s.settled = true → s.walker.current = some b →
       ∃ t, exec (.accessFailure .walker) s = .next t ∧ OnlyBoard s t ∧ t.inflight = s.inflight ∧
         t.acts = [] ∧
         (b.atHalt = false →
           HaltedWith .bus s t ∧ t.walker.current = none ∧
             t.walker.accesses =
               (if b.access.isRead then [] else [b.access]) ++
                 s.walker.accesses.filter fun x => !x.isRead) ∧
         (∀ r, b.atHalt = true → s.walker.state = .halted r →
           RegsKept s t ∧ t.writer = s.writer ∧ WalkerKeptButAccesses s t ∧
             (s.walker.hasHeaderRead = false →
               t.walker.due = (if b.access.isRead then [] else [b.access]) ++ s.walker.accesses))) ∧
  (∀ (w : SlotWrite) (s : State), s.settled = true → s.writer.current = some w →
       ∃ t, exec (.accessFailure .statusWriter) s = .next t ∧ OnlyBoard s t ∧ t.inflight = s.inflight ∧
         t.acts = [] ∧
         (w.orphan = true → RegsKept s t ∧ t.walker = s.walker) ∧
         (w.orphan = false →
           t.walker.state = .halted .bus ∧ t.walker.anchor = s.walker.anchor ∧
             t.walker.takenCount = s.walker.takenCount ∧
             t.walker.finishedCount = s.walker.finishedCount ∧ t.walker.lookAgain = false ∧
             CausesSet 0x20 s t ∧ t.writer = { s.writer with posting := [], current := none } ∧
             t.walker.current = s.walker.current.map (fun b => { b with atHalt := true }) ∧
             t.walker.accesses = s.walker.accesses.filter fun x => !x.isRead))

/-! ## The register window -/

/-- ATTACH (R115, R116, R183): in DETACHED and HALTED with no header read outstanding a BOARD_BASE of 0 or
off a multiple of 64 halts the walker with BAD_HEADER, and any other is read, ahead of the kept writes; in
every other case, and with DETACH written too, the walker is unchanged. With RIG_RESET written it is the
rig reset alone. That ATTACH in HALTED with a header read outstanding is ignored as in DETACHED, and that the
row is the write of the value with its own bit 1, are the model's choices (log entries 19 and 10). -/
def Obligations.AttachReadsTheHeader : Prop :=
  ∀ (w : Word) (s : State), s.settled = true →
    let base := s.regs.boardHi.toNat * 2 ^ 32 + s.regs.boardLo.toNat
    let stands : Bool :=
      s.walker.state.attached || s.walker.hasHeaderRead || w.getLsbD 1
    ∃ t, exec (.attach w) s = .next t ∧
      (w.getLsbD 3 = true → exec (.rigReset w) s = .next t) ∧
      (w.getLsbD 3 = false →
        OnlyBoard s t ∧ t.inflight = s.inflight ∧ t.writer = s.writer ∧
          (stands = true → t.walker = s.walker ∧ t.regs = controlRegs w s.regs) ∧
          (stands = false → base = 0 ∨ base % 64 ≠ 0 →
            t.walker.state = .halted .badHeader ∧ t.walker.anchor = s.walker.anchor ∧
              t.walker.accesses = (s.walker.accesses.filter fun x => !x.isRead) ∧
              t.regs =
                { controlRegs w s.regs with attn := s.regs.attn ||| 0x20 }) ∧
          (stands = false → base ≠ 0 → base % 64 = 0 →
            t.regs = controlRegs w s.regs ∧ WalkerKeptButAccesses s t ∧
              (s.walker.current = none →
                WalkerNow s.walker (.headerRead (BitVec.ofNat 64 base) :: s.walker.accesses) t) ∧
              (s.walker.current ≠ none →
                t.walker.current = s.walker.current ∧
                  t.walker.accesses =
                    .headerRead (BitVec.ofNat 64 base) :: s.walker.accesses)))

/-- DETACH (R124, R125, R183): in WATCHING, FETCHING and STALLED the walker enters DETACHING, a stalled
copy is dropped, and with nothing in flight and no access due it is DETACHED in the same event; in any
other state, and with ATTACH written too, the walker is unchanged. In DETACHING the data of a read is
discarded. -/
def Obligations.DetachFinishesWhatIsDue : Prop :=
  let idle (s : State) : Bool :=
    s.inflight.items.all (·.isNone) && s.walker.accesses.isEmpty
  let ended (s t : State) : Prop :=
    t.walker =
        { s.walker with
          state := .detached, anchor := .absent, copy := none, lookAgain := false, current := none } ∧
      t.writer =
        { s.writer with
          posting := [], current := s.writer.current.map fun w => { w with orphan := true } }
  (∀ (w : Word) (s : State), s.settled = true → w.getLsbD 3 = false →
       let takes : Bool := s.walker.state.attached && s.walker.state != .detaching && !w.getLsbD 0
       ∃ t, exec (.detach w) s = .next t ∧ OnlyBoard s t ∧ t.inflight = s.inflight ∧
         (takes = false →
           t.walker = s.walker ∧ t.writer = s.writer ∧ t.regs = controlRegs w s.regs) ∧
         (takes = true → idle s = true → s.walker.current = none →
           ended s t ∧
             t.regs = { controlRegs w s.regs with attn := s.regs.attn ||| 0x40 }) ∧
         (takes = true → idle s = false ∨ s.walker.current ≠ none →
           t.writer = s.writer ∧ t.regs = controlRegs w s.regs ∧
             t.walker =
               { s.walker with
                 state := .detaching, lookAgain := false
                 copy := if s.walker.state = .stalled then none else s.walker.copy })) ∧
  (∀ (w : Word) (s : State), w.getLsbD 3 = true → exec (.detach w) s = exec (.rigReset w) s) ∧
  (∀ (b : BusAccess) (a : Addr) (n : Nat) (link : Addr) (data : Table Byte 64) (list : List Byte)
       (c : Instr) (s : State), s.settled = true → s.walker.state = .detaching →
       list.length = 4 * n →
       (s.reading b .linkRead ∧ c = .linkReadComplete link) ∨
         (s.reading b (.blockRead a) ∧ c = .blockReadComplete data) ∨
         (s.reading b (.listRead a n) ∧ c = .profileListReadComplete list) →
       ∃ t, exec c s = .next t ∧ OnlyBoard s t ∧ t.inflight = s.inflight ∧
         (idle s = true → ended s t ∧ CausesSet 0x40 s t) ∧
         (idle s = false →
           RegsKept s t ∧ t.writer = s.writer ∧ WalkerNow s.walker s.walker.accesses t))

/-- POLL, CLEAR_POWER_ON, CLEAR_RIG and CLEAR_LINK (R183): the value written sets POLL and clears the causes
written 1; with exactly one of ATTACH and DETACH the write is that row's. ATTN clears each bit written 1 and
ATTN_MASK stores its seven bits (R185, R186); the interrupt is asserted exactly while a cause is both set and
unmasked. REGISTER_WRITE by offset (Table 10-12): a write that R182 ignores changes nothing, any other is its
register's row. Reads (R182, R114): CONTROL by field with the walker state and halt reason of Table 10-14, its
other bits 0; a narrow read gives the bytes it covers. The model's choices: each row forces its own bit, POLL
forces RIG_RESET to 0 (log entry 10); a REGISTER_WRITE that is not ignored acts (log entry 11); a read is a
function of the state (log entry 31), and an access has 8, 16 or 32 bits at a multiple of its width (log entry
40). -/
def Obligations.ControlAndAttentionWrites : Prop :=
  (∀ (w : Word) (s : State), s.settled = true → w.getLsbD 0 = w.getLsbD 1 →
       (∃ t, exec (.poll w) s = .next t ∧ OnlyRegs s t ∧ t.regs = controlRegs w s.regs) ∧
       (w.getLsbD 3 = false →
         (∃ t, exec (.clearPowerOn w) s = .next t ∧ OnlyRegs s t ∧
           t.regs = { controlRegs w s.regs with powerOn := false }) ∧
         (∃ t, exec (.clearRig w) s = .next t ∧ OnlyRegs s t ∧
           t.regs = { controlRegs w s.regs with rig := false }) ∧
         (∃ t, exec (.clearLink w) s = .next t ∧ OnlyRegs s t ∧
           t.regs = { controlRegs w s.regs with link := false }))) ∧
  (∀ (w : Word) (s : State), w.getLsbD 0 ≠ w.getLsbD 1 →
       let row (v : Word) : Instr := if w.getLsbD 0 then .attach v else .detach v
       exec (.poll w) s = exec (row (w &&& 0xFFFFFFF7)) s ∧
         (w.getLsbD 3 = false →
           exec (.clearPowerOn w) s = exec (row (w ||| 0x100)) s ∧
             exec (.clearRig w) s = exec (row (w ||| 0x200)) s ∧
             exec (.clearLink w) s = exec (row (w ||| 0x400)) s)) ∧
  (∀ (w : Word) (c : Instr) (s : State), w.getLsbD 3 = true →
       c = .clearPowerOn w ∨ c = .clearRig w ∨ c = .clearLink w → exec c s = exec (.rigReset w) s) ∧
  (∀ (w : Word) (s : State), s.settled = true →
       (∃ t, exec (.attn w) s = .next t ∧ OnlyRegs s t ∧
         t.regs = { s.regs with attn := s.regs.attn &&& ~~~w }) ∧
       (∃ t, exec (.attnMask w) s = .next t ∧ OnlyRegs s t ∧
         t.regs = { s.regs with attnMask := w &&& 0x7F }) ∧
       (s.interruptLevel = true ↔ ∃ k, s.regs.attn.getLsbD k = true ∧ s.regs.attnMask.getLsbD k = true)) ∧
  (∀ (offset : BitVec 5) (z : AccessSize) (w : Word) (s : State),
       ((offset.toNat < 4 ∨ 28 ≤ offset.toNat ∨ (z ≠ .word ∧ offset.toNat / 4 ≠ 4)) →
         exec (.registerWrite offset z w) s = .next s.quiet) ∧
       (offset.toNat / 4 = 4 → exec (.registerWrite offset z w) s = exec (.nudge z w) s) ∧
       (offset = 0x08 → exec (.registerWrite offset .word w) s = exec (.attn w) s) ∧
       (offset = 0x0C → exec (.registerWrite offset .word w) s = exec (.attnMask w) s) ∧
       (offset = 0x14 → exec (.registerWrite offset .word w) s = exec (.boardLo w) s) ∧
       (offset = 0x18 → exec (.registerWrite offset .word w) s = exec (.boardHi w) s) ∧
       (offset = 0x04 → w.getLsbD 3 = false →
         exec (.registerWrite offset .word w) s = exec (.poll w) s) ∧
       (offset = 0x04 → w.getLsbD 3 = true →
         exec (.registerWrite offset .word w) s = exec (.rigReset w) s)) ∧
  (∀ s : State,
       let c := readRegister .control s
       c.getLsbD 2 = s.regs.poll ∧ c.getLsbD 8 = s.regs.powerOn ∧ c.getLsbD 9 = s.regs.rig ∧
         c.getLsbD 10 = s.regs.link ∧
         (c.extractLsb' 16 3).toNat =
           (match s.walker.state with
             | .detached => 0 | .watching => 1 | .fetching => 2 | .stalled => 3 | .detaching => 4
             | .halted _ => 5) ∧
         (c.extractLsb' 20 4).toNat =
           (match s.walker.state with
             | .halted .badHeader => 1 | .halted .badLink => 2 | .halted .badState => 3
             | .halted .bus => 4 | _ => 0) ∧
         (∀ k, k ∉ [2, 8, 9, 10, 16, 17, 18, 20, 21, 22, 23] → c.getLsbD k = false) ∧
         readRegister .ident s = 0x5A160001 ∧ readRegister .attn s = s.regs.attn ∧
         readRegister .attnMask s = s.regs.attnMask ∧ readRegister .boardLo s = s.regs.boardLo ∧
         readRegister .boardHi s = s.regs.boardHi ∧ readRegister .nudge s = 0 ∧
         readRegister .unused s = 0) ∧
  ∀ (offset : BitVec 5) (z : AccessSize) (s : State), z.aligned offset = true →
    [Reg.ident, .control, .attn, .attnMask, .nudge, .boardLo, .boardHi, .unused][offset.toNat / 4]? =
        some (windowReg offset) ∧
      (readWindow offset z s).length = z.bytes ∧
      ∀ i, i < z.bytes →
        (readWindow offset z s)[i]? =
          some ((readRegister (windowReg offset) s).extractLsb' (8 * (offset.toNat % 4 + i)) 8)

/-- NUDGE, BOARD_LO and BOARD_HI (R184, R118): a NUDGE of any value and size is taken by Table 7-4 and
changes no register; a BOARD write stores its value in DETACHED and HALTED and is ignored in any other
state; ATTACH judges BOARD_HI × 2^32 + BOARD_LO; a header read already placed keeps its address. -/
def Obligations.NudgeAndBoardWrites : Prop :=
  (∀ (z : AccessSize) (w : Word) (s : State), s.settled = true →
       ∃ t, exec (.nudge z w) s = .next t ∧ OnlyBoard s t ∧ t.inflight = s.inflight ∧ RegsKept s t ∧
         t.writer = s.writer ∧
         (s.walker.state = .watching → s.walker.hasLinkRead = false →
           WalkerKeptButAccesses s t ∧ t.walker.due = s.walker.due ++ [.linkRead]) ∧
         (s.walker.state = .watching ∧ s.walker.hasLinkRead = true ∨ s.walker.state = .fetching ∨
             s.walker.state = .stalled →
           t.walker = { s.walker with lookAgain := true }) ∧
         (s.walker.state.attached = false ∨ s.walker.state = .detaching → t.walker = s.walker)) ∧
  (∀ (w : Word) (s : State), s.settled = true →
       let taken : Bool := !s.walker.state.attached
       (∃ t, exec (.boardLo w) s = .next t ∧ OnlyRegs s t ∧
         t.regs = { s.regs with boardLo := if taken then w else s.regs.boardLo }) ∧
       ∃ t, exec (.boardHi w) s = .next t ∧ OnlyRegs s t ∧
         t.regs = { s.regs with boardHi := if taken then w else s.regs.boardHi }) ∧
  (∀ (w lo hi : Word) (s : State), s.settled = true → s.walker.state = .detached →
       s.walker.hasHeaderRead = false → s.walker.current = none → w.getLsbD 1 = false →
       w.getLsbD 3 = false →
       let base := hi.toNat * 2 ^ 32 + lo.toNat
       ∃ t u v, exec (.boardLo lo) s = .next t ∧ exec (.boardHi hi) t = .next u ∧
         exec (.attach w) u = .next v ∧ u.regs.boardBase.toNat = base ∧
         (base = 0 ∨ base % 64 ≠ 0 → v.walker.state = .halted .badHeader) ∧
         (base ≠ 0 → base % 64 = 0 →
           v.walker.state = .detached ∧
             v.walker.current.map (·.access) = some (.headerRead (BitVec.ofNat 64 base))))

/-! ## Studio inputs -/

/-- INPUT_LINE_CHANGE sets the debounce anew to 20 ms (R165); a level that is already there is no change, and
the command then has no effect (the model's choice, log entry 3). INPUT_DEBOUNCE_EXPIRY (R165 to R167): a level
that agrees gives nothing; one that differs is taken into the level and the count, sets STUDIO_INPUT and posts
the line slot, and an edge that the binding names gives NO_GROUP, NO_SWEEP or STARTED. A sweep with stagger 0,
or of one member, visits its members in the visiting order and ends in the event (R160, R161), and beside a
STALLED walker the held copy is then taken again (R122); any other visits the lead and waits. That DONE writes
of the event stand before that take's writes is the model's choice (log entry 39). -/
def Obligations.LineChangesAndTriggers : Prop :=
  (∀ (n : LineNo) (high : Bool) (s : State), s.settled = true →
       (high ≠ (s.line n).raw →
         ∃ t, exec (.inputLineChange n high) s = .next t ∧
           t = { (s.setLine n { s.line n with raw := high, debounce := some 20 }) with acts := [] }) ∧
       (high = (s.line n).raw → exec (.inputLineChange n high) s = .next s.quiet)) ∧
  (∀ (n : LineNo) (s : State), s.settled = true → (s.line n).debounce = some 0 →
       (s.line n).raw = (s.line n).level →
       ∃ t, exec (.inputDebounceExpiry n) s = .next t ∧
         t = { (s.setLine n { s.line n with debounce := none }) with acts := [] }) ∧
  (∀ (n : LineNo) (s : State), s.settled = true → (s.line n).debounce = some 0 →
       (s.line n).raw ≠ (s.line n).level → s.walker.state ≠ .stalled ∨ s.sweepEndsAt n = false →
       ∃ t, exec (.inputDebounceExpiry n) s = .next t ∧ LineChanged n s t ∧ WalkerKeptButAccesses s t ∧
         PostedWhileAttached (.line n) s t) ∧
  (∀ (n : LineNo) (x : Binding) (d : GroupDef) (c : FetchedCopy) (s : State),
       (s.line n).debounce = some 0 → (s.line n).raw ≠ (s.line n).level → s.walker.state = .stalled →
       s.walker.copy = some c → s.sweepEndsAt n = true → s.binding n = some x →
       (s.group x.group).defn = some d → d.lead < d.members.length →
       ∃ u, LineChanged n s u ∧ .line n ∈ u.writer.posting ∧
         TakenAgain c (exec (.inputDebounceExpiry n) s) s u)

/-! ## Formats -/

/-- The governor slot holds the governor state, the queue length, the History count and the slots held in bytes
2 to 5, the Grant Queue from head to tail in bytes 8 onward with 0xFF beyond its length, and the holdoff left
as the write begins, 0 in OPEN; the line slot holds the level, the change count and the last result as the write
begins (R177, Tables 10-8 and 10-9). The port slot holds the published fields of the Port Record byte by byte,
an absent class record and firmware level as zeros with their flags 0 (R176, Tables 10-6, 10-7 and 1-2). Each slot is
written in parts, its serial first and last (R179). A write begins with the slot at the head of the posting list, its
serial raised and its fields as they are then (R178). That addresses wrap at 2^64 is the model's choice (log entry
27). -/
def Obligations.GovernorAndLineSlotsAsWritten : Prop :=
  (∀ (base : Addr) (w : Writer) (s : State), s.governor.queue.length ≤ 16 →
       let serial := leBytes 2 w.govSerial.toNat
       let body := governorSlotBody s.governor
       slotParts base w .governor s =
           [(base + 0x240, serial), (base + 0x240 + 2, body), (base + 0x240 + 46, serial)] ∧
         body.length = 44 ∧
         body[0]? = some (match s.governor.state with | .opened => 0 | .holdoff _ => 1) ∧
         body[1]? = some (BitVec.ofNat 8 s.governor.queue.length) ∧
         body[2]? = some (BitVec.ofNat 8 s.governor.history.length) ∧
         body[3]? = some (BitVec.ofNat 8 s.governor.slotsHeld) ∧
         (∀ i, i < 22 → body[22 + i]? = some 0) ∧
         (∀ i, i < 16 →
           body[6 + i]? =
             some (match s.governor.queue[i]? with | some p => BitVec.ofNat 8 p.val | none => 0xFF)) ∧
         (s.governor.state = .opened → leNat ((body.drop 4).take 2) = 0) ∧
         (∀ d, s.governor.state = .holdoff d → d < 65536 → leNat ((body.drop 4).take 2) = d)) ∧
  (∀ (base : Addr) (w : Writer) (n : LineNo) (s : State),
       slotParts base w (.line n) s =
         [ (base + BitVec.ofNat 64 (0x200 + 8 * n.val), [w.lineSerial.get n]),
           (base + BitVec.ofNat 64 (0x200 + 8 * n.val) + 1,
             [if (s.line n).level then 1 else 0, (s.line n).result.code]),
           (base + BitVec.ofNat 64 (0x200 + 8 * n.val) + 4, leBytes 4 (s.line n).changes.toNat),
           (base + BitVec.ofNat 64 (0x200 + 8 * n.val) + 3, [w.lineSerial.get n]) ]) ∧
  [TriggerResult.none, .started, .noGroup, .noSweep].map TriggerResult.code = [0, 1, 2, 3] ∧
  (∀ (base : Addr) (w : Writer) (p : PortNo) (s : State),
       let x := s.port p
       let a := base + BitVec.ofNat 64 (32 * p.val)
       let serial := leBytes 2 (w.portSerial.get p).toNat
       let record (f : ClassRecord → Byte) : Byte :=
         match x.classRecord with
         | some c => f c
         | none => 0
       let bit (b : Bool) (n : Nat) : Nat := if b then n else 0
       let flags :=
         bit x.plugged 1 + bit x.stale 2 + bit x.keepDue 4 + bit x.classRecord.isSome 8 +
           bit x.firmware.isSome 16
       slotParts base w (.port p) s =
           [(a, serial), (a + 2, portSlotHead x), (a + 24, portSlotTail x), (a + 22, serial)] ∧
         portSlotHead x =
           [ x.state.code, x.target.code, (match x.state with | .faulted r => r.code | _ => 0),
             x.endReason.code, BitVec.ofNat 8 flags,
             (match x.firmware with | some f => f | none => 0),
             record (·.classCode), record (·.railSettle), record (·.bootLimit),
             record (·.keepalivePeriod), record (·.lapseLimit), record (·.resumeLimit),
             BitVec.ofNat 8 x.silence, BitVec.ofNat 8 x.bootAttempts, BitVec.ofNat 8 x.tripCount,
             BitVec.ofNat 8 x.recovery, BitVec.ofNat 8 x.profile.length,
             BitVec.ofNat 8 x.waiters.length, 0, 0 ] ∧
         (portSlotTail x).length = 8 ∧ leNat ((portSlotTail x).take 4) = x.stamp.toNat ∧
         leNat ((portSlotTail x).drop 4) = x.stateBeat.toNat) ∧
  ([PState.empty, .identifying, .off, .queued, .powering, .booting, .tuning, .ready, .pausing, .paused,
       .resuming, .stopping, .faulted .boot].map PState.code =
       [0, 1, 2, 3, 4, 5, 6, 7, 8, 9, 10, 11, 12] ∧
     (∀ r, (PState.faulted r).code = 12 ∧ (EndReason.fault r).code = r.code) ∧
     [Target.off, .awake, .paused].map Target.code = [0, 1, 2] ∧
     [FaultReason.plugNoack, .plugBad, .boot, .supply, .link, .mismatch, .hold, .resume, .lapse].map
         FaultReason.code = [1, 2, 3, 4, 5, 6, 7, 8, 9] ∧
     [EndReason.none, .stopped, .stopLimit, .parted, .unplugged, .cut, .lapsed, .tripped, .bootRetry,
         .cancelled].map EndReason.code =
       [0, 0x10, 0x11, 0x12, 0x13, 0x14, 0x15, 0x16, 0x17, 0x18]) ∧
  ∀ (x : Slot) (rest : List Slot) (board : Board) (s : State), s.walker.state.attached = true →
    s.writer.current = none → s.writer.posting = x :: rest → s.walker.board = some board →
    (beginSlotWrite s).writer.current =
      some
        { slot := x, orphan := false
          parts := slotParts board.statusPage ({ s.writer with posting := rest }.raiseSerial x) x s }

/-- The header as it is read and written (R112, R173): 64 bytes at ATTACH, judged by the signature, the
layout version and the status page address; bytes 8 to 15 for a link read at the header and the first 8
bytes of the block at a block; bytes 24 to 39 written with the anchor, 0 for the header, and the two
counts. The writes of a block (R174), with the codes of the outcomes and of the refusal reasons (Tables 8-4 and
8-2). -/
def Obligations.HeaderAndBlockBytes : Prop :=
  ([OutcomeCode.none, .reached, .already, .superseded, .noCamera, .isFaulted, .notPaused, .notFaulted, .unplugged,
       .parted, .stored, .cleared].map OutcomeCode.code =
       [0x00, 0x01, 0x02, 0x03, 0x04, 0x05, 0x06, 0x07, 0x08, 0x09, 0x0A, 0x0B] ∧
     [FaultReason.plugNoack, .plugBad, .boot, .supply, .link, .mismatch, .hold, .resume, .lapse].map
         (fun r => (OutcomeCode.fault r).code) =
       [0x21, 0x22, 0x23, 0x24, 0x25, 0x26, 0x27, 0x28, 0x29] ∧
     [RefusalReason.badKind, .badFlags, .badTarget, .badParam, .badProfile, .groupBusy, .rigBusy].map
         RefusalReason.code = [1, 2, 3, 4, 5, 6, 7]) ∧
  (∀ b : Table Byte 64,
       headerGood b = true ↔
         [byteAt b 0, byteAt b 1, byteAt b 2, byteAt b 3] = [0x42, 0x54, 0x5A, 0x4E] ∧
           [byteAt b 4, byteAt b 5, byteAt b 6, byteAt b 7] = [1, 0, 0, 0] ∧
           fieldAt b 16 8 ≠ 0 ∧ fieldAt b 16 8 % 64 = 0) ∧
  (∀ (a : Addr) (n : Nat) (s : State),
       (busAccess (.headerRead a) s).read = some (a, 64) ∧
         (busAccess (.blockRead a) s).read = some (a, 64) ∧
         (busAccess (.listRead a n) s).read = some (a, 4 * n)) ∧
  (∀ (page : Board) (s : State), s.walker.board = some page →
       (∀ a, s.walker.anchor = .block a → (busAccess .linkRead s).read = some (a, 8)) ∧
         (s.walker.anchor = .header → (busAccess .linkRead s).read = some (page.header + 8, 8)) ∧
         let parts := (busAccess .headerWrite s).parts
         let bytes := parts.flatMap (·.2)
         parts.map (·.1) = [page.header + 24] ∧ bytes.length = 16 ∧
           leNat (bytes.take 8) = (match s.walker.anchor with | .block a => a.toNat | _ => 0) ∧
           leNat ((bytes.drop 8).take 4) = s.walker.takenCount.toNat ∧
           leNat (bytes.drop 12) = s.walker.finishedCount.toNat) ∧
  ∀ (w : BlockWrite) (s : State),
    (w.form = .taken → (busAccess (.blockWrite w) s).parts = [(w.address + 8, [2])]) ∧
      (∀ outs, w.form = .done outs →
        (busAccess (.blockWrite w) s).parts =
          [ (w.address + 11, [0]), (w.address + 40, outs.items.map (·.code)),
            (w.address + 56, leBytes 4 s.cadence.beat.toNat), (w.address + 8, [3]) ]) ∧
      ∀ r, w.form = .refused r →
        (busAccess (.blockWrite w) s).parts =
          [ (w.address + 11, [r.code]), (w.address + 40, List.replicate 16 0),
            (w.address + 56, leBytes 4 s.cadence.beat.toNat), (w.address + 8, [4]) ]

/-! ## Invariants -/

/-- Every step keeps the invariants of the sixteen ports and of the governor, the monitor and the cadence:
among them rail, lane and timer agree with the state, a port without a camera or faulted has target OFF,
the counts stay in their ranges, slots held never exceed BOOT_CAP, the History holds at most four grants. On
sound ports it keeps the invariant of the Reader Queue and the Grant Queue: neither holds a port twice, the
read in progress is that of the head, the Reader Queue holds an IDENTIFYING port or the port whose withdrawal is
on its way (R69, R76), and the Grant Queue's ports are QUEUED once their messages are taken (R96, with the
model's choice of log entry 35). -/
def Obligations.StepsKeepPortsAndRigSound : Prop :=
  ∀ s t : State, step s = .next t →
    (s.portsSound = true → t.portsSound = true) ∧ (s.rigSound = true → t.rigSound = true) ∧
      (s.portsSound = true → s.queuesSound = true → t.queuesSound = true)

/-- Every step keeps the agreement of ports, sweeps and In-flight Table (R13, R144, R146, R157): a port is
pending in an entry exactly when its waiter list names the entry or a sweep of the request has the port
still to visit. -/
def Obligations.StepsKeepRequestsSound : Prop :=
  ∀ s t : State, s.portsSound = true → s.requestsSound = true → step s = .next t →
    t.requestsSound = true

/-- Every step keeps the walker's invariant, that a slot is posted at most once, and that nothing is left
waiting that an event should have begun (R114, R117, R178, R180): that accesses and slot writes begin by the end of
their event is the model's choice (log entry 24). Every step that changes a published field of a port posts the
port's slot while the Status Writer writes (R5, R178). -/
def Obligations.StepsKeepWalkerAndWriterSound : Prop :=
  (∀ s t : State, s.walkerSound = true → s.settled = true → step s = .next t →
     t.walkerSound = true ∧ t.settled = true ∧ (s.postingSound = true → t.postingSound = true)) ∧
  ∀ (s t : State) (p : PortNo), step s = .next t →
    portSlotHead (t.port p) ≠ portSlotHead (s.port p) ∨ portSlotTail (t.port p) ≠ portSlotTail (s.port p) →
    PostedWhileAttached (.port p) s t

/-- Every invariant holds right after reset. -/
def Obligations.ResetIsSound : Prop :=
  State.reset.portsSound = true ∧ State.reset.rigSound = true ∧ State.reset.queuesSound = true ∧
    State.reset.requestsSound = true ∧
    State.reset.walkerSound = true ∧ State.reset.postingSound = true ∧ State.reset.settled = true
end

