-- ==== Sys2Proof/Laws/State.lean ====
section
/-! SUPPORT. Each field of State after each named update, so that no later proof unfolds a record update. -/

set_option Elab.async false

namespace Sys2Proof.Machine

@[simp] theorem modPort_pending (s : State) (p : PortNo) (f : Port → Port) : (s.modPort p f).pending = s.pending := rfl
@[simp] theorem modPort_acts (s : State) (p : PortNo) (f : Port → Port) : (s.modPort p f).acts = s.acts := rfl
@[simp] theorem modPort_cadence (s : State) (p : PortNo) (f : Port → Port) : (s.modPort p f).cadence = s.cadence := rfl
@[simp] theorem modPort_ports (s : State) (p : PortNo) (f : Port → Port) : (s.modPort p f).ports = s.ports.set p (f (s.port p)) := rfl
@[simp] theorem modPort_stampCounter (s : State) (p : PortNo) (f : Port → Port) : (s.modPort p f).stampCounter = s.stampCounter := rfl
@[simp] theorem modPort_reader (s : State) (p : PortNo) (f : Port → Port) : (s.modPort p f).reader = s.reader := rfl
@[simp] theorem modPort_governor (s : State) (p : PortNo) (f : Port → Port) : (s.modPort p f).governor = s.governor := rfl
@[simp] theorem modPort_monitor (s : State) (p : PortNo) (f : Port → Port) : (s.modPort p f).monitor = s.monitor := rfl
@[simp] theorem modPort_walker (s : State) (p : PortNo) (f : Port → Port) : (s.modPort p f).walker = s.walker := rfl
@[simp] theorem modPort_inflight (s : State) (p : PortNo) (f : Port → Port) : (s.modPort p f).inflight = s.inflight := rfl
@[simp] theorem modPort_groups (s : State) (p : PortNo) (f : Port → Port) : (s.modPort p f).groups = s.groups := rfl
@[simp] theorem modPort_pool (s : State) (p : PortNo) (f : Port → Port) : (s.modPort p f).pool = s.pool := rfl
@[simp] theorem modPort_bindings (s : State) (p : PortNo) (f : Port → Port) : (s.modPort p f).bindings = s.bindings := rfl
@[simp] theorem modPort_lines (s : State) (p : PortNo) (f : Port → Port) : (s.modPort p f).lines = s.lines := rfl
@[simp] theorem modPort_writer (s : State) (p : PortNo) (f : Port → Port) : (s.modPort p f).writer = s.writer := rfl
@[simp] theorem modPort_regs (s : State) (p : PortNo) (f : Port → Port) : (s.modPort p f).regs = s.regs := rfl

@[simp] theorem setEntry_pending (s : State) (e : EntryNo) (x : Option Entry) : (s.setEntry e x).pending = s.pending := rfl
@[simp] theorem setEntry_acts (s : State) (e : EntryNo) (x : Option Entry) : (s.setEntry e x).acts = s.acts := rfl
@[simp] theorem setEntry_cadence (s : State) (e : EntryNo) (x : Option Entry) : (s.setEntry e x).cadence = s.cadence := rfl
@[simp] theorem setEntry_ports (s : State) (e : EntryNo) (x : Option Entry) : (s.setEntry e x).ports = s.ports := rfl
@[simp] theorem setEntry_stampCounter (s : State) (e : EntryNo) (x : Option Entry) : (s.setEntry e x).stampCounter = s.stampCounter := rfl
@[simp] theorem setEntry_reader (s : State) (e : EntryNo) (x : Option Entry) : (s.setEntry e x).reader = s.reader := rfl
@[simp] theorem setEntry_governor (s : State) (e : EntryNo) (x : Option Entry) : (s.setEntry e x).governor = s.governor := rfl
@[simp] theorem setEntry_monitor (s : State) (e : EntryNo) (x : Option Entry) : (s.setEntry e x).monitor = s.monitor := rfl
@[simp] theorem setEntry_walker (s : State) (e : EntryNo) (x : Option Entry) : (s.setEntry e x).walker = s.walker := rfl
@[simp] theorem setEntry_inflight (s : State) (e : EntryNo) (x : Option Entry) : (s.setEntry e x).inflight = s.inflight.set e x := rfl
@[simp] theorem setEntry_groups (s : State) (e : EntryNo) (x : Option Entry) : (s.setEntry e x).groups = s.groups := rfl
@[simp] theorem setEntry_pool (s : State) (e : EntryNo) (x : Option Entry) : (s.setEntry e x).pool = s.pool := rfl
@[simp] theorem setEntry_bindings (s : State) (e : EntryNo) (x : Option Entry) : (s.setEntry e x).bindings = s.bindings := rfl
@[simp] theorem setEntry_lines (s : State) (e : EntryNo) (x : Option Entry) : (s.setEntry e x).lines = s.lines := rfl
@[simp] theorem setEntry_writer (s : State) (e : EntryNo) (x : Option Entry) : (s.setEntry e x).writer = s.writer := rfl
@[simp] theorem setEntry_regs (s : State) (e : EntryNo) (x : Option Entry) : (s.setEntry e x).regs = s.regs := rfl

@[simp] theorem setGroup_pending (s : State) (g : GroupNo) (x : Group) : (s.setGroup g x).pending = s.pending := rfl
@[simp] theorem setGroup_acts (s : State) (g : GroupNo) (x : Group) : (s.setGroup g x).acts = s.acts := rfl
@[simp] theorem setGroup_cadence (s : State) (g : GroupNo) (x : Group) : (s.setGroup g x).cadence = s.cadence := rfl
@[simp] theorem setGroup_ports (s : State) (g : GroupNo) (x : Group) : (s.setGroup g x).ports = s.ports := rfl
@[simp] theorem setGroup_stampCounter (s : State) (g : GroupNo) (x : Group) : (s.setGroup g x).stampCounter = s.stampCounter := rfl
@[simp] theorem setGroup_reader (s : State) (g : GroupNo) (x : Group) : (s.setGroup g x).reader = s.reader := rfl
@[simp] theorem setGroup_governor (s : State) (g : GroupNo) (x : Group) : (s.setGroup g x).governor = s.governor := rfl
@[simp] theorem setGroup_monitor (s : State) (g : GroupNo) (x : Group) : (s.setGroup g x).monitor = s.monitor := rfl
@[simp] theorem setGroup_walker (s : State) (g : GroupNo) (x : Group) : (s.setGroup g x).walker = s.walker := rfl
@[simp] theorem setGroup_inflight (s : State) (g : GroupNo) (x : Group) : (s.setGroup g x).inflight = s.inflight := rfl
@[simp] theorem setGroup_groups (s : State) (g : GroupNo) (x : Group) : (s.setGroup g x).groups = s.groups.set g x := rfl
@[simp] theorem setGroup_pool (s : State) (g : GroupNo) (x : Group) : (s.setGroup g x).pool = s.pool := rfl
@[simp] theorem setGroup_bindings (s : State) (g : GroupNo) (x : Group) : (s.setGroup g x).bindings = s.bindings := rfl
@[simp] theorem setGroup_lines (s : State) (g : GroupNo) (x : Group) : (s.setGroup g x).lines = s.lines := rfl
@[simp] theorem setGroup_writer (s : State) (g : GroupNo) (x : Group) : (s.setGroup g x).writer = s.writer := rfl
@[simp] theorem setGroup_regs (s : State) (g : GroupNo) (x : Group) : (s.setGroup g x).regs = s.regs := rfl

@[simp] theorem setSweep_pending (s : State) (r : SweepNo) (x : Option Sweep) : (s.setSweep r x).pending = s.pending := rfl
@[simp] theorem setSweep_acts (s : State) (r : SweepNo) (x : Option Sweep) : (s.setSweep r x).acts = s.acts := rfl
@[simp] theorem setSweep_cadence (s : State) (r : SweepNo) (x : Option Sweep) : (s.setSweep r x).cadence = s.cadence := rfl
@[simp] theorem setSweep_ports (s : State) (r : SweepNo) (x : Option Sweep) : (s.setSweep r x).ports = s.ports := rfl
@[simp] theorem setSweep_stampCounter (s : State) (r : SweepNo) (x : Option Sweep) : (s.setSweep r x).stampCounter = s.stampCounter := rfl
@[simp] theorem setSweep_reader (s : State) (r : SweepNo) (x : Option Sweep) : (s.setSweep r x).reader = s.reader := rfl
@[simp] theorem setSweep_governor (s : State) (r : SweepNo) (x : Option Sweep) : (s.setSweep r x).governor = s.governor := rfl
@[simp] theorem setSweep_monitor (s : State) (r : SweepNo) (x : Option Sweep) : (s.setSweep r x).monitor = s.monitor := rfl
@[simp] theorem setSweep_walker (s : State) (r : SweepNo) (x : Option Sweep) : (s.setSweep r x).walker = s.walker := rfl
@[simp] theorem setSweep_inflight (s : State) (r : SweepNo) (x : Option Sweep) : (s.setSweep r x).inflight = s.inflight := rfl
@[simp] theorem setSweep_groups (s : State) (r : SweepNo) (x : Option Sweep) : (s.setSweep r x).groups = s.groups := rfl
@[simp] theorem setSweep_pool (s : State) (r : SweepNo) (x : Option Sweep) : (s.setSweep r x).pool = s.pool.set r x := rfl
@[simp] theorem setSweep_bindings (s : State) (r : SweepNo) (x : Option Sweep) : (s.setSweep r x).bindings = s.bindings := rfl
@[simp] theorem setSweep_lines (s : State) (r : SweepNo) (x : Option Sweep) : (s.setSweep r x).lines = s.lines := rfl
@[simp] theorem setSweep_writer (s : State) (r : SweepNo) (x : Option Sweep) : (s.setSweep r x).writer = s.writer := rfl
@[simp] theorem setSweep_regs (s : State) (r : SweepNo) (x : Option Sweep) : (s.setSweep r x).regs = s.regs := rfl

@[simp] theorem setBinding_pending (s : State) (n : LineNo) (b : Option Binding) : (s.setBinding n b).pending = s.pending := rfl
@[simp] theorem setBinding_acts (s : State) (n : LineNo) (b : Option Binding) : (s.setBinding n b).acts = s.acts := rfl
@[simp] theorem setBinding_cadence (s : State) (n : LineNo) (b : Option Binding) : (s.setBinding n b).cadence = s.cadence := rfl
@[simp] theorem setBinding_ports (s : State) (n : LineNo) (b : Option Binding) : (s.setBinding n b).ports = s.ports := rfl
@[simp] theorem setBinding_stampCounter (s : State) (n : LineNo) (b : Option Binding) : (s.setBinding n b).stampCounter = s.stampCounter := rfl
@[simp] theorem setBinding_reader (s : State) (n : LineNo) (b : Option Binding) : (s.setBinding n b).reader = s.reader := rfl
@[simp] theorem setBinding_governor (s : State) (n : LineNo) (b : Option Binding) : (s.setBinding n b).governor = s.governor := rfl
@[simp] theorem setBinding_monitor (s : State) (n : LineNo) (b : Option Binding) : (s.setBinding n b).monitor = s.monitor := rfl
@[simp] theorem setBinding_walker (s : State) (n : LineNo) (b : Option Binding) : (s.setBinding n b).walker = s.walker := rfl
@[simp] theorem setBinding_inflight (s : State) (n : LineNo) (b : Option Binding) : (s.setBinding n b).inflight = s.inflight := rfl
@[simp] theorem setBinding_groups (s : State) (n : LineNo) (b : Option Binding) : (s.setBinding n b).groups = s.groups := rfl
@[simp] theorem setBinding_pool (s : State) (n : LineNo) (b : Option Binding) : (s.setBinding n b).pool = s.pool := rfl
@[simp] theorem setBinding_bindings (s : State) (n : LineNo) (b : Option Binding) : (s.setBinding n b).bindings = s.bindings.set n b := rfl
@[simp] theorem setBinding_lines (s : State) (n : LineNo) (b : Option Binding) : (s.setBinding n b).lines = s.lines := rfl
@[simp] theorem setBinding_writer (s : State) (n : LineNo) (b : Option Binding) : (s.setBinding n b).writer = s.writer := rfl
@[simp] theorem setBinding_regs (s : State) (n : LineNo) (b : Option Binding) : (s.setBinding n b).regs = s.regs := rfl

@[simp] theorem setLine_pending (s : State) (n : LineNo) (l : Line) : (s.setLine n l).pending = s.pending := rfl
@[simp] theorem setLine_acts (s : State) (n : LineNo) (l : Line) : (s.setLine n l).acts = s.acts := rfl
@[simp] theorem setLine_cadence (s : State) (n : LineNo) (l : Line) : (s.setLine n l).cadence = s.cadence := rfl
@[simp] theorem setLine_ports (s : State) (n : LineNo) (l : Line) : (s.setLine n l).ports = s.ports := rfl
@[simp] theorem setLine_stampCounter (s : State) (n : LineNo) (l : Line) : (s.setLine n l).stampCounter = s.stampCounter := rfl
@[simp] theorem setLine_reader (s : State) (n : LineNo) (l : Line) : (s.setLine n l).reader = s.reader := rfl
@[simp] theorem setLine_governor (s : State) (n : LineNo) (l : Line) : (s.setLine n l).governor = s.governor := rfl
@[simp] theorem setLine_monitor (s : State) (n : LineNo) (l : Line) : (s.setLine n l).monitor = s.monitor := rfl
@[simp] theorem setLine_walker (s : State) (n : LineNo) (l : Line) : (s.setLine n l).walker = s.walker := rfl
@[simp] theorem setLine_inflight (s : State) (n : LineNo) (l : Line) : (s.setLine n l).inflight = s.inflight := rfl
@[simp] theorem setLine_groups (s : State) (n : LineNo) (l : Line) : (s.setLine n l).groups = s.groups := rfl
@[simp] theorem setLine_pool (s : State) (n : LineNo) (l : Line) : (s.setLine n l).pool = s.pool := rfl
@[simp] theorem setLine_bindings (s : State) (n : LineNo) (l : Line) : (s.setLine n l).bindings = s.bindings := rfl
@[simp] theorem setLine_lines (s : State) (n : LineNo) (l : Line) : (s.setLine n l).lines = s.lines.set n l := rfl
@[simp] theorem setLine_writer (s : State) (n : LineNo) (l : Line) : (s.setLine n l).writer = s.writer := rfl
@[simp] theorem setLine_regs (s : State) (n : LineNo) (l : Line) : (s.setLine n l).regs = s.regs := rfl

@[simp] theorem setWalker_pending (s : State) (w : Walker) : (s.setWalker w).pending = s.pending := rfl
@[simp] theorem setWalker_acts (s : State) (w : Walker) : (s.setWalker w).acts = s.acts := rfl
@[simp] theorem setWalker_cadence (s : State) (w : Walker) : (s.setWalker w).cadence = s.cadence := rfl
@[simp] theorem setWalker_ports (s : State) (w : Walker) : (s.setWalker w).ports = s.ports := rfl
@[simp] theorem setWalker_stampCounter (s : State) (w : Walker) : (s.setWalker w).stampCounter = s.stampCounter := rfl
@[simp] theorem setWalker_reader (s : State) (w : Walker) : (s.setWalker w).reader = s.reader := rfl
@[simp] theorem setWalker_governor (s : State) (w : Walker) : (s.setWalker w).governor = s.governor := rfl
@[simp] theorem setWalker_monitor (s : State) (w : Walker) : (s.setWalker w).monitor = s.monitor := rfl
@[simp] theorem setWalker_walker (s : State) (w : Walker) : (s.setWalker w).walker = w := rfl
@[simp] theorem setWalker_inflight (s : State) (w : Walker) : (s.setWalker w).inflight = s.inflight := rfl
@[simp] theorem setWalker_groups (s : State) (w : Walker) : (s.setWalker w).groups = s.groups := rfl
@[simp] theorem setWalker_pool (s : State) (w : Walker) : (s.setWalker w).pool = s.pool := rfl
@[simp] theorem setWalker_bindings (s : State) (w : Walker) : (s.setWalker w).bindings = s.bindings := rfl
@[simp] theorem setWalker_lines (s : State) (w : Walker) : (s.setWalker w).lines = s.lines := rfl
@[simp] theorem setWalker_writer (s : State) (w : Walker) : (s.setWalker w).writer = s.writer := rfl
@[simp] theorem setWalker_regs (s : State) (w : Walker) : (s.setWalker w).regs = s.regs := rfl

@[simp] theorem setGovernor_pending (s : State) (g : Governor) : (s.setGovernor g).pending = s.pending := rfl
@[simp] theorem setGovernor_acts (s : State) (g : Governor) : (s.setGovernor g).acts = s.acts := rfl
@[simp] theorem setGovernor_cadence (s : State) (g : Governor) : (s.setGovernor g).cadence = s.cadence := rfl
@[simp] theorem setGovernor_ports (s : State) (g : Governor) : (s.setGovernor g).ports = s.ports := rfl
@[simp] theorem setGovernor_stampCounter (s : State) (g : Governor) : (s.setGovernor g).stampCounter = s.stampCounter := rfl
@[simp] theorem setGovernor_reader (s : State) (g : Governor) : (s.setGovernor g).reader = s.reader := rfl
@[simp] theorem setGovernor_governor (s : State) (g : Governor) : (s.setGovernor g).governor = g := rfl
@[simp] theorem setGovernor_monitor (s : State) (g : Governor) : (s.setGovernor g).monitor = s.monitor := rfl
@[simp] theorem setGovernor_walker (s : State) (g : Governor) : (s.setGovernor g).walker = s.walker := rfl
@[simp] theorem setGovernor_inflight (s : State) (g : Governor) : (s.setGovernor g).inflight = s.inflight := rfl
@[simp] theorem setGovernor_groups (s : State) (g : Governor) : (s.setGovernor g).groups = s.groups := rfl
@[simp] theorem setGovernor_pool (s : State) (g : Governor) : (s.setGovernor g).pool = s.pool := rfl
@[simp] theorem setGovernor_bindings (s : State) (g : Governor) : (s.setGovernor g).bindings = s.bindings := rfl
@[simp] theorem setGovernor_lines (s : State) (g : Governor) : (s.setGovernor g).lines = s.lines := rfl
@[simp] theorem setGovernor_writer (s : State) (g : Governor) : (s.setGovernor g).writer = s.writer := rfl
@[simp] theorem setGovernor_regs (s : State) (g : Governor) : (s.setGovernor g).regs = s.regs := rfl

@[simp] theorem setMonitor_pending (s : State) (m : Monitor) : (s.setMonitor m).pending = s.pending := rfl
@[simp] theorem setMonitor_acts (s : State) (m : Monitor) : (s.setMonitor m).acts = s.acts := rfl
@[simp] theorem setMonitor_cadence (s : State) (m : Monitor) : (s.setMonitor m).cadence = s.cadence := rfl
@[simp] theorem setMonitor_ports (s : State) (m : Monitor) : (s.setMonitor m).ports = s.ports := rfl
@[simp] theorem setMonitor_stampCounter (s : State) (m : Monitor) : (s.setMonitor m).stampCounter = s.stampCounter := rfl
@[simp] theorem setMonitor_reader (s : State) (m : Monitor) : (s.setMonitor m).reader = s.reader := rfl
@[simp] theorem setMonitor_governor (s : State) (m : Monitor) : (s.setMonitor m).governor = s.governor := rfl
@[simp] theorem setMonitor_monitor (s : State) (m : Monitor) : (s.setMonitor m).monitor = m := rfl
@[simp] theorem setMonitor_walker (s : State) (m : Monitor) : (s.setMonitor m).walker = s.walker := rfl
@[simp] theorem setMonitor_inflight (s : State) (m : Monitor) : (s.setMonitor m).inflight = s.inflight := rfl
@[simp] theorem setMonitor_groups (s : State) (m : Monitor) : (s.setMonitor m).groups = s.groups := rfl
@[simp] theorem setMonitor_pool (s : State) (m : Monitor) : (s.setMonitor m).pool = s.pool := rfl
@[simp] theorem setMonitor_bindings (s : State) (m : Monitor) : (s.setMonitor m).bindings = s.bindings := rfl
@[simp] theorem setMonitor_lines (s : State) (m : Monitor) : (s.setMonitor m).lines = s.lines := rfl
@[simp] theorem setMonitor_writer (s : State) (m : Monitor) : (s.setMonitor m).writer = s.writer := rfl
@[simp] theorem setMonitor_regs (s : State) (m : Monitor) : (s.setMonitor m).regs = s.regs := rfl

@[simp] theorem setReader_pending (s : State) (r : Reader) : (s.setReader r).pending = s.pending := rfl
@[simp] theorem setReader_acts (s : State) (r : Reader) : (s.setReader r).acts = s.acts := rfl
@[simp] theorem setReader_cadence (s : State) (r : Reader) : (s.setReader r).cadence = s.cadence := rfl
@[simp] theorem setReader_ports (s : State) (r : Reader) : (s.setReader r).ports = s.ports := rfl
@[simp] theorem setReader_stampCounter (s : State) (r : Reader) : (s.setReader r).stampCounter = s.stampCounter := rfl
@[simp] theorem setReader_reader (s : State) (r : Reader) : (s.setReader r).reader = r := rfl
@[simp] theorem setReader_governor (s : State) (r : Reader) : (s.setReader r).governor = s.governor := rfl
@[simp] theorem setReader_monitor (s : State) (r : Reader) : (s.setReader r).monitor = s.monitor := rfl
@[simp] theorem setReader_walker (s : State) (r : Reader) : (s.setReader r).walker = s.walker := rfl
@[simp] theorem setReader_inflight (s : State) (r : Reader) : (s.setReader r).inflight = s.inflight := rfl
@[simp] theorem setReader_groups (s : State) (r : Reader) : (s.setReader r).groups = s.groups := rfl
@[simp] theorem setReader_pool (s : State) (r : Reader) : (s.setReader r).pool = s.pool := rfl
@[simp] theorem setReader_bindings (s : State) (r : Reader) : (s.setReader r).bindings = s.bindings := rfl
@[simp] theorem setReader_lines (s : State) (r : Reader) : (s.setReader r).lines = s.lines := rfl
@[simp] theorem setReader_writer (s : State) (r : Reader) : (s.setReader r).writer = s.writer := rfl
@[simp] theorem setReader_regs (s : State) (r : Reader) : (s.setReader r).regs = s.regs := rfl

@[simp] theorem setWriter_pending (s : State) (w : Writer) : (s.setWriter w).pending = s.pending := rfl
@[simp] theorem setWriter_acts (s : State) (w : Writer) : (s.setWriter w).acts = s.acts := rfl
@[simp] theorem setWriter_cadence (s : State) (w : Writer) : (s.setWriter w).cadence = s.cadence := rfl
@[simp] theorem setWriter_ports (s : State) (w : Writer) : (s.setWriter w).ports = s.ports := rfl
@[simp] theorem setWriter_stampCounter (s : State) (w : Writer) : (s.setWriter w).stampCounter = s.stampCounter := rfl
@[simp] theorem setWriter_reader (s : State) (w : Writer) : (s.setWriter w).reader = s.reader := rfl
@[simp] theorem setWriter_governor (s : State) (w : Writer) : (s.setWriter w).governor = s.governor := rfl
@[simp] theorem setWriter_monitor (s : State) (w : Writer) : (s.setWriter w).monitor = s.monitor := rfl
@[simp] theorem setWriter_walker (s : State) (w : Writer) : (s.setWriter w).walker = s.walker := rfl
@[simp] theorem setWriter_inflight (s : State) (w : Writer) : (s.setWriter w).inflight = s.inflight := rfl
@[simp] theorem setWriter_groups (s : State) (w : Writer) : (s.setWriter w).groups = s.groups := rfl
@[simp] theorem setWriter_pool (s : State) (w : Writer) : (s.setWriter w).pool = s.pool := rfl
@[simp] theorem setWriter_bindings (s : State) (w : Writer) : (s.setWriter w).bindings = s.bindings := rfl
@[simp] theorem setWriter_lines (s : State) (w : Writer) : (s.setWriter w).lines = s.lines := rfl
@[simp] theorem setWriter_writer (s : State) (w : Writer) : (s.setWriter w).writer = w := rfl
@[simp] theorem setWriter_regs (s : State) (w : Writer) : (s.setWriter w).regs = s.regs := rfl

@[simp] theorem setRegs_pending (s : State) (r : Registers) : (s.setRegs r).pending = s.pending := rfl
@[simp] theorem setRegs_acts (s : State) (r : Registers) : (s.setRegs r).acts = s.acts := rfl
@[simp] theorem setRegs_cadence (s : State) (r : Registers) : (s.setRegs r).cadence = s.cadence := rfl
@[simp] theorem setRegs_ports (s : State) (r : Registers) : (s.setRegs r).ports = s.ports := rfl
@[simp] theorem setRegs_stampCounter (s : State) (r : Registers) : (s.setRegs r).stampCounter = s.stampCounter := rfl
@[simp] theorem setRegs_reader (s : State) (r : Registers) : (s.setRegs r).reader = s.reader := rfl
@[simp] theorem setRegs_governor (s : State) (r : Registers) : (s.setRegs r).governor = s.governor := rfl
@[simp] theorem setRegs_monitor (s : State) (r : Registers) : (s.setRegs r).monitor = s.monitor := rfl
@[simp] theorem setRegs_walker (s : State) (r : Registers) : (s.setRegs r).walker = s.walker := rfl
@[simp] theorem setRegs_inflight (s : State) (r : Registers) : (s.setRegs r).inflight = s.inflight := rfl
@[simp] theorem setRegs_groups (s : State) (r : Registers) : (s.setRegs r).groups = s.groups := rfl
@[simp] theorem setRegs_pool (s : State) (r : Registers) : (s.setRegs r).pool = s.pool := rfl
@[simp] theorem setRegs_bindings (s : State) (r : Registers) : (s.setRegs r).bindings = s.bindings := rfl
@[simp] theorem setRegs_lines (s : State) (r : Registers) : (s.setRegs r).lines = s.lines := rfl
@[simp] theorem setRegs_writer (s : State) (r : Registers) : (s.setRegs r).writer = s.writer := rfl
@[simp] theorem setRegs_regs (s : State) (r : Registers) : (s.setRegs r).regs = r := rfl

@[simp] theorem emit_pending (s : State) (a : List WireAct) : (s.emit a).pending = s.pending := rfl
@[simp] theorem emit_acts (s : State) (a : List WireAct) : (s.emit a).acts = s.acts ++ a := rfl
@[simp] theorem emit_cadence (s : State) (a : List WireAct) : (s.emit a).cadence = s.cadence := rfl
@[simp] theorem emit_ports (s : State) (a : List WireAct) : (s.emit a).ports = s.ports := rfl
@[simp] theorem emit_stampCounter (s : State) (a : List WireAct) : (s.emit a).stampCounter = s.stampCounter := rfl
@[simp] theorem emit_reader (s : State) (a : List WireAct) : (s.emit a).reader = s.reader := rfl
@[simp] theorem emit_governor (s : State) (a : List WireAct) : (s.emit a).governor = s.governor := rfl
@[simp] theorem emit_monitor (s : State) (a : List WireAct) : (s.emit a).monitor = s.monitor := rfl
@[simp] theorem emit_walker (s : State) (a : List WireAct) : (s.emit a).walker = s.walker := rfl
@[simp] theorem emit_inflight (s : State) (a : List WireAct) : (s.emit a).inflight = s.inflight := rfl
@[simp] theorem emit_groups (s : State) (a : List WireAct) : (s.emit a).groups = s.groups := rfl
@[simp] theorem emit_pool (s : State) (a : List WireAct) : (s.emit a).pool = s.pool := rfl
@[simp] theorem emit_bindings (s : State) (a : List WireAct) : (s.emit a).bindings = s.bindings := rfl
@[simp] theorem emit_lines (s : State) (a : List WireAct) : (s.emit a).lines = s.lines := rfl
@[simp] theorem emit_writer (s : State) (a : List WireAct) : (s.emit a).writer = s.writer := rfl
@[simp] theorem emit_regs (s : State) (a : List WireAct) : (s.emit a).regs = s.regs := rfl

@[simp] theorem quiet_pending (s : State) : (s.quiet).pending = s.pending := rfl
@[simp] theorem quiet_acts (s : State) : (s.quiet).acts = [] := rfl
@[simp] theorem quiet_cadence (s : State) : (s.quiet).cadence = s.cadence := rfl
@[simp] theorem quiet_ports (s : State) : (s.quiet).ports = s.ports := rfl
@[simp] theorem quiet_stampCounter (s : State) : (s.quiet).stampCounter = s.stampCounter := rfl
@[simp] theorem quiet_reader (s : State) : (s.quiet).reader = s.reader := rfl
@[simp] theorem quiet_governor (s : State) : (s.quiet).governor = s.governor := rfl
@[simp] theorem quiet_monitor (s : State) : (s.quiet).monitor = s.monitor := rfl
@[simp] theorem quiet_walker (s : State) : (s.quiet).walker = s.walker := rfl
@[simp] theorem quiet_inflight (s : State) : (s.quiet).inflight = s.inflight := rfl
@[simp] theorem quiet_groups (s : State) : (s.quiet).groups = s.groups := rfl
@[simp] theorem quiet_pool (s : State) : (s.quiet).pool = s.pool := rfl
@[simp] theorem quiet_bindings (s : State) : (s.quiet).bindings = s.bindings := rfl
@[simp] theorem quiet_lines (s : State) : (s.quiet).lines = s.lines := rfl
@[simp] theorem quiet_writer (s : State) : (s.quiet).writer = s.writer := rfl
@[simp] theorem quiet_regs (s : State) : (s.quiet).regs = s.regs := rfl

@[simp] theorem withPending_pending (s : State) (q : List Instr) : (s.withPending q).pending = q := rfl
@[simp] theorem withPending_acts (s : State) (q : List Instr) : (s.withPending q).acts = s.acts := rfl
@[simp] theorem withPending_cadence (s : State) (q : List Instr) : (s.withPending q).cadence = s.cadence := rfl
@[simp] theorem withPending_ports (s : State) (q : List Instr) : (s.withPending q).ports = s.ports := rfl
@[simp] theorem withPending_stampCounter (s : State) (q : List Instr) : (s.withPending q).stampCounter = s.stampCounter := rfl
@[simp] theorem withPending_reader (s : State) (q : List Instr) : (s.withPending q).reader = s.reader := rfl
@[simp] theorem withPending_governor (s : State) (q : List Instr) : (s.withPending q).governor = s.governor := rfl
@[simp] theorem withPending_monitor (s : State) (q : List Instr) : (s.withPending q).monitor = s.monitor := rfl
@[simp] theorem withPending_walker (s : State) (q : List Instr) : (s.withPending q).walker = s.walker := rfl
@[simp] theorem withPending_inflight (s : State) (q : List Instr) : (s.withPending q).inflight = s.inflight := rfl
@[simp] theorem withPending_groups (s : State) (q : List Instr) : (s.withPending q).groups = s.groups := rfl
@[simp] theorem withPending_pool (s : State) (q : List Instr) : (s.withPending q).pool = s.pool := rfl
@[simp] theorem withPending_bindings (s : State) (q : List Instr) : (s.withPending q).bindings = s.bindings := rfl
@[simp] theorem withPending_lines (s : State) (q : List Instr) : (s.withPending q).lines = s.lines := rfl
@[simp] theorem withPending_writer (s : State) (q : List Instr) : (s.withPending q).writer = s.writer := rfl
@[simp] theorem withPending_regs (s : State) (q : List Instr) : (s.withPending q).regs = s.regs := rfl

end Sys2Proof.Machine
end

