-- ==== Sys2Proof/Laws/Table.lean ====
section
/-! SUPPORT. A table read after it is changed. -/

set_option Elab.async false

namespace Sys2Proof.Table

variable {α β : Type} {n : Nat}

theorem get_eq_getElem (t : Table α n) (i : Fin n) : t.get i = t.items[i.val]'(by rw [t.size]; exact i.isLt) :=
  rfl

@[simp] theorem get_set_self (t : Table α n) (i : Fin n) (a : α) : (t.set i a).get i = a := by
  simp [get_eq_getElem, set]

theorem get_set_ne (t : Table α n) {i j : Fin n} (a : α) (h : j ≠ i) : (t.set i a).get j = t.get j := by
  have hv : i.val ≠ j.val := fun e => h (Fin.ext e.symm)
  simp [get_eq_getElem, set, hv]

/-- A place read after any place was changed. -/
theorem get_set (t : Table α n) (i j : Fin n) (a : α) :
    (t.set i a).get j = if j = i then a else t.get j := by
  by_cases h : j = i
  · subst h; simp
  · simp [h, get_set_ne]

@[simp] theorem get_replicate (a : α) (i : Fin n) : (replicate n a).get i = a := by
  simp [get_eq_getElem, replicate]

@[simp] theorem get_map (f : α → β) (t : Table α n) (i : Fin n) : (t.map f).get i = f (t.get i) := by
  simp [get_eq_getElem, map]

/-- Two tables that agree at every place are equal. -/
theorem ext_get {t u : Table α n} (h : ∀ i, t.get i = u.get i) : t = u := by
  cases t with
  | mk a ha =>
    cases u with
    | mk b hb =>
      have : a = b := by
        apply List.ext_getElem
        · rw [ha, hb]
        · intro i h1 _
          exact h ⟨i, by rw [← ha]; exact h1⟩
      subst this
      rfl

/-- Writing back what is there changes nothing. -/
@[simp] theorem set_get (t : Table α n) (i : Fin n) : t.set i (t.get i) = t :=
  ext_get fun j => by rw [get_set]; split <;> simp_all

theorem set_set (t : Table α n) (i : Fin n) (a b : α) : (t.set i a).set i b = t.set i b :=
  ext_get fun j => by simp only [get_set]; split <;> rfl

/-- A test that every place passes, place by place. -/
theorem all_iff (t : Table α n) (f : α → Bool) : t.items.all f = true ↔ ∀ i, f (t.get i) = true := by
  rw [List.all_eq_true]
  constructor
  · exact fun h i => h _ (List.getElem_mem _)
  · intro h a ha
    obtain ⟨i, hi, rfl⟩ := List.getElem_of_mem ha
    exact h ⟨i, by rw [← t.size]; exact hi⟩

end Sys2Proof.Table
end

