-- ==== Sys2Proof/Laws/Ops.lean ====
section
/-! SUPPORT. What the shared operations leave alone, field by field, and what they do to the one port, entry or
list they change. -/

set_option Elab.async false

namespace Sys2Proof.Machine

/-! ## One port, one entry, one record -/

@[simp] theorem port_modPort_self (s : State) (p : PortNo) (f : Port → Port) :
    (s.modPort p f).port p = f (s.port p) := by simp [State.port]

theorem port_modPort_ne (s : State) {p q : PortNo} (f : Port → Port) (h : q ≠ p) :
    (s.modPort p f).port q = s.port q := by simp [State.port, Table.get_set_ne _ _ h]

/-- A port read after any port was changed. -/
theorem port_modPort (s : State) (p q : PortNo) (f : Port → Port) :
    (s.modPort p f).port q = if q = p then f (s.port p) else s.port q := by
  by_cases h : q = p
  · subst h; simp
  · simp [h, port_modPort_ne]

theorem entry_setEntry (s : State) (e d : EntryNo) (x : Option Entry) :
    (s.setEntry e x).entry d = if d = e then x else s.entry d := by
  simp [State.entry, Table.get_set]

theorem group_setGroup (s : State) (g h : GroupNo) (x : Group) :
    (s.setGroup g x).group h = if h = g then x else s.group h := by
  simp [State.group, Table.get_set]

theorem sweep_setSweep (s : State) (r q : SweepNo) (x : Option Sweep) :
    (s.setSweep r x).sweep q = if q = r then x else s.sweep q := by
  simp [State.sweep, Table.get_set]

theorem line_setLine (s : State) (n m : LineNo) (l : Line) :
    (s.setLine n l).line m = if m = n then l else s.line m := by
  simp [State.line, Table.get_set]

/-- A reading of one thing depends on its table alone. -/
theorem port_congr {s t : State} (h : t.ports = s.ports) (p : PortNo) : t.port p = s.port p := by
  simp [State.port, h]

theorem entry_congr {s t : State} (h : t.inflight = s.inflight) (e : EntryNo) : t.entry e = s.entry e := by
  simp [State.entry, h]

/-! ## Causes, postings, messages, accesses -/

@[simp] theorem raise_pending (s : State) (c : Cause) : (s.raise c).pending = s.pending := rfl
@[simp] theorem raise_acts (s : State) (c : Cause) : (s.raise c).acts = s.acts := rfl
@[simp] theorem raise_cadence (s : State) (c : Cause) : (s.raise c).cadence = s.cadence := rfl
@[simp] theorem raise_ports (s : State) (c : Cause) : (s.raise c).ports = s.ports := rfl
@[simp] theorem raise_stampCounter (s : State) (c : Cause) : (s.raise c).stampCounter = s.stampCounter := rfl
@[simp] theorem raise_reader (s : State) (c : Cause) : (s.raise c).reader = s.reader := rfl
@[simp] theorem raise_governor (s : State) (c : Cause) : (s.raise c).governor = s.governor := rfl
@[simp] theorem raise_monitor (s : State) (c : Cause) : (s.raise c).monitor = s.monitor := rfl
@[simp] theorem raise_walker (s : State) (c : Cause) : (s.raise c).walker = s.walker := rfl
@[simp] theorem raise_inflight (s : State) (c : Cause) : (s.raise c).inflight = s.inflight := rfl
@[simp] theorem raise_groups (s : State) (c : Cause) : (s.raise c).groups = s.groups := rfl
@[simp] theorem raise_pool (s : State) (c : Cause) : (s.raise c).pool = s.pool := rfl
@[simp] theorem raise_bindings (s : State) (c : Cause) : (s.raise c).bindings = s.bindings := rfl
@[simp] theorem raise_lines (s : State) (c : Cause) : (s.raise c).lines = s.lines := rfl
@[simp] theorem raise_writer (s : State) (c : Cause) : (s.raise c).writer = s.writer := rfl

@[simp] theorem raise_regs (s : State) (c : Cause) :
    (s.raise c).regs = { s.regs with attn := s.regs.attn ||| c.bit } := rfl

/-- A posting changes the posting list alone. -/
theorem post_eq (s : State) (x : Slot) :
    s.post x = s ∨ s.post x = s.setWriter { s.writer with posting := s.writer.posting ++ [x] } := by
  unfold State.post; split <;> simp

@[simp] theorem post_pending (s : State) (x : Slot) : (s.post x).pending = s.pending := by unfold State.post; split <;> rfl
@[simp] theorem post_acts (s : State) (x : Slot) : (s.post x).acts = s.acts := by unfold State.post; split <;> rfl
@[simp] theorem post_cadence (s : State) (x : Slot) : (s.post x).cadence = s.cadence := by unfold State.post; split <;> rfl
@[simp] theorem post_ports (s : State) (x : Slot) : (s.post x).ports = s.ports := by unfold State.post; split <;> rfl
@[simp] theorem post_stampCounter (s : State) (x : Slot) : (s.post x).stampCounter = s.stampCounter := by unfold State.post; split <;> rfl
@[simp] theorem post_reader (s : State) (x : Slot) : (s.post x).reader = s.reader := by unfold State.post; split <;> rfl
@[simp] theorem post_governor (s : State) (x : Slot) : (s.post x).governor = s.governor := by unfold State.post; split <;> rfl
@[simp] theorem post_monitor (s : State) (x : Slot) : (s.post x).monitor = s.monitor := by unfold State.post; split <;> rfl
@[simp] theorem post_walker (s : State) (x : Slot) : (s.post x).walker = s.walker := by unfold State.post; split <;> rfl
@[simp] theorem post_inflight (s : State) (x : Slot) : (s.post x).inflight = s.inflight := by unfold State.post; split <;> rfl
@[simp] theorem post_groups (s : State) (x : Slot) : (s.post x).groups = s.groups := by unfold State.post; split <;> rfl
@[simp] theorem post_pool (s : State) (x : Slot) : (s.post x).pool = s.pool := by unfold State.post; split <;> rfl
@[simp] theorem post_bindings (s : State) (x : Slot) : (s.post x).bindings = s.bindings := by unfold State.post; split <;> rfl
@[simp] theorem post_lines (s : State) (x : Slot) : (s.post x).lines = s.lines := by unfold State.post; split <;> rfl
@[simp] theorem post_regs (s : State) (x : Slot) : (s.post x).regs = s.regs := by unfold State.post; split <;> rfl

@[simp] theorem place_pending (s : State) (a : Access) : (s.place a).pending = s.pending := rfl
@[simp] theorem place_acts (s : State) (a : Access) : (s.place a).acts = s.acts := rfl
@[simp] theorem place_cadence (s : State) (a : Access) : (s.place a).cadence = s.cadence := rfl
@[simp] theorem place_ports (s : State) (a : Access) : (s.place a).ports = s.ports := rfl
@[simp] theorem place_stampCounter (s : State) (a : Access) : (s.place a).stampCounter = s.stampCounter := rfl
@[simp] theorem place_reader (s : State) (a : Access) : (s.place a).reader = s.reader := rfl
@[simp] theorem place_governor (s : State) (a : Access) : (s.place a).governor = s.governor := rfl
@[simp] theorem place_monitor (s : State) (a : Access) : (s.place a).monitor = s.monitor := rfl
@[simp] theorem place_inflight (s : State) (a : Access) : (s.place a).inflight = s.inflight := rfl
@[simp] theorem place_groups (s : State) (a : Access) : (s.place a).groups = s.groups := rfl
@[simp] theorem place_pool (s : State) (a : Access) : (s.place a).pool = s.pool := rfl
@[simp] theorem place_bindings (s : State) (a : Access) : (s.place a).bindings = s.bindings := rfl
@[simp] theorem place_lines (s : State) (a : Access) : (s.place a).lines = s.lines := rfl
@[simp] theorem place_writer (s : State) (a : Access) : (s.place a).writer = s.writer := rfl
@[simp] theorem place_regs (s : State) (a : Access) : (s.place a).regs = s.regs := rfl

@[simp] theorem placeHeaderWrite_pending (s : State) : (s.placeHeaderWrite).pending = s.pending := by unfold State.placeHeaderWrite; split <;> rfl
@[simp] theorem placeHeaderWrite_acts (s : State) : (s.placeHeaderWrite).acts = s.acts := by unfold State.placeHeaderWrite; split <;> rfl
@[simp] theorem placeHeaderWrite_cadence (s : State) : (s.placeHeaderWrite).cadence = s.cadence := by unfold State.placeHeaderWrite; split <;> rfl
@[simp] theorem placeHeaderWrite_ports (s : State) : (s.placeHeaderWrite).ports = s.ports := by unfold State.placeHeaderWrite; split <;> rfl
@[simp] theorem placeHeaderWrite_stampCounter (s : State) : (s.placeHeaderWrite).stampCounter = s.stampCounter := by unfold State.placeHeaderWrite; split <;> rfl
@[simp] theorem placeHeaderWrite_reader (s : State) : (s.placeHeaderWrite).reader = s.reader := by unfold State.placeHeaderWrite; split <;> rfl
@[simp] theorem placeHeaderWrite_governor (s : State) : (s.placeHeaderWrite).governor = s.governor := by unfold State.placeHeaderWrite; split <;> rfl
@[simp] theorem placeHeaderWrite_monitor (s : State) : (s.placeHeaderWrite).monitor = s.monitor := by unfold State.placeHeaderWrite; split <;> rfl
@[simp] theorem placeHeaderWrite_inflight (s : State) : (s.placeHeaderWrite).inflight = s.inflight := by unfold State.placeHeaderWrite; split <;> rfl
@[simp] theorem placeHeaderWrite_groups (s : State) : (s.placeHeaderWrite).groups = s.groups := by unfold State.placeHeaderWrite; split <;> rfl
@[simp] theorem placeHeaderWrite_pool (s : State) : (s.placeHeaderWrite).pool = s.pool := by unfold State.placeHeaderWrite; split <;> rfl
@[simp] theorem placeHeaderWrite_bindings (s : State) : (s.placeHeaderWrite).bindings = s.bindings := by unfold State.placeHeaderWrite; split <;> rfl
@[simp] theorem placeHeaderWrite_lines (s : State) : (s.placeHeaderWrite).lines = s.lines := by unfold State.placeHeaderWrite; split <;> rfl
@[simp] theorem placeHeaderWrite_writer (s : State) : (s.placeHeaderWrite).writer = s.writer := by unfold State.placeHeaderWrite; split <;> rfl
@[simp] theorem placeHeaderWrite_regs (s : State) : (s.placeHeaderWrite).regs = s.regs := by unfold State.placeHeaderWrite; split <;> rfl

@[simp] theorem recordOutcome_pending (s : State) (e : EntryNo) (p : PortNo) (o : OutcomeCode) : (s.recordOutcome e p o).pending = s.pending := by
  unfold State.recordOutcome; split <;> rfl
@[simp] theorem recordOutcome_acts (s : State) (e : EntryNo) (p : PortNo) (o : OutcomeCode) : (s.recordOutcome e p o).acts = s.acts := by
  unfold State.recordOutcome; split <;> rfl
@[simp] theorem recordOutcome_cadence (s : State) (e : EntryNo) (p : PortNo) (o : OutcomeCode) : (s.recordOutcome e p o).cadence = s.cadence := by
  unfold State.recordOutcome; split <;> rfl
@[simp] theorem recordOutcome_ports (s : State) (e : EntryNo) (p : PortNo) (o : OutcomeCode) : (s.recordOutcome e p o).ports = s.ports := by
  unfold State.recordOutcome; split <;> rfl
@[simp] theorem recordOutcome_stampCounter (s : State) (e : EntryNo) (p : PortNo) (o : OutcomeCode) : (s.recordOutcome e p o).stampCounter = s.stampCounter := by
  unfold State.recordOutcome; split <;> rfl
@[simp] theorem recordOutcome_reader (s : State) (e : EntryNo) (p : PortNo) (o : OutcomeCode) : (s.recordOutcome e p o).reader = s.reader := by
  unfold State.recordOutcome; split <;> rfl
@[simp] theorem recordOutcome_governor (s : State) (e : EntryNo) (p : PortNo) (o : OutcomeCode) : (s.recordOutcome e p o).governor = s.governor := by
  unfold State.recordOutcome; split <;> rfl
@[simp] theorem recordOutcome_monitor (s : State) (e : EntryNo) (p : PortNo) (o : OutcomeCode) : (s.recordOutcome e p o).monitor = s.monitor := by
  unfold State.recordOutcome; split <;> rfl
@[simp] theorem recordOutcome_walker (s : State) (e : EntryNo) (p : PortNo) (o : OutcomeCode) : (s.recordOutcome e p o).walker = s.walker := by
  unfold State.recordOutcome; split <;> rfl
@[simp] theorem recordOutcome_groups (s : State) (e : EntryNo) (p : PortNo) (o : OutcomeCode) : (s.recordOutcome e p o).groups = s.groups := by
  unfold State.recordOutcome; split <;> rfl
@[simp] theorem recordOutcome_pool (s : State) (e : EntryNo) (p : PortNo) (o : OutcomeCode) : (s.recordOutcome e p o).pool = s.pool := by
  unfold State.recordOutcome; split <;> rfl
@[simp] theorem recordOutcome_bindings (s : State) (e : EntryNo) (p : PortNo) (o : OutcomeCode) : (s.recordOutcome e p o).bindings = s.bindings := by
  unfold State.recordOutcome; split <;> rfl
@[simp] theorem recordOutcome_lines (s : State) (e : EntryNo) (p : PortNo) (o : OutcomeCode) : (s.recordOutcome e p o).lines = s.lines := by
  unfold State.recordOutcome; split <;> rfl
@[simp] theorem recordOutcome_writer (s : State) (e : EntryNo) (p : PortNo) (o : OutcomeCode) : (s.recordOutcome e p o).writer = s.writer := by
  unfold State.recordOutcome; split <;> rfl
@[simp] theorem recordOutcome_regs (s : State) (e : EntryNo) (p : PortNo) (o : OutcomeCode) : (s.recordOutcome e p o).regs = s.regs := by
  unfold State.recordOutcome; split <;> rfl

@[simp] theorem finishEntry_pending (s : State) (e : EntryNo) : (s.finishEntry e).pending = s.pending := by
  unfold State.finishEntry; split <;> (try split) <;> rfl
@[simp] theorem finishEntry_acts (s : State) (e : EntryNo) : (s.finishEntry e).acts = s.acts := by
  unfold State.finishEntry; split <;> (try split) <;> rfl
@[simp] theorem finishEntry_cadence (s : State) (e : EntryNo) : (s.finishEntry e).cadence = s.cadence := by
  unfold State.finishEntry; split <;> (try split) <;> rfl
@[simp] theorem finishEntry_ports (s : State) (e : EntryNo) : (s.finishEntry e).ports = s.ports := by
  unfold State.finishEntry; split <;> (try split) <;> rfl
@[simp] theorem finishEntry_stampCounter (s : State) (e : EntryNo) : (s.finishEntry e).stampCounter = s.stampCounter := by
  unfold State.finishEntry; split <;> (try split) <;> rfl
@[simp] theorem finishEntry_reader (s : State) (e : EntryNo) : (s.finishEntry e).reader = s.reader := by
  unfold State.finishEntry; split <;> (try split) <;> rfl
@[simp] theorem finishEntry_governor (s : State) (e : EntryNo) : (s.finishEntry e).governor = s.governor := by
  unfold State.finishEntry; split <;> (try split) <;> rfl
@[simp] theorem finishEntry_monitor (s : State) (e : EntryNo) : (s.finishEntry e).monitor = s.monitor := by
  unfold State.finishEntry; split <;> (try split) <;> rfl
@[simp] theorem finishEntry_groups (s : State) (e : EntryNo) : (s.finishEntry e).groups = s.groups := by
  unfold State.finishEntry; split <;> (try split) <;> rfl
@[simp] theorem finishEntry_pool (s : State) (e : EntryNo) : (s.finishEntry e).pool = s.pool := by
  unfold State.finishEntry; split <;> (try split) <;> rfl
@[simp] theorem finishEntry_bindings (s : State) (e : EntryNo) : (s.finishEntry e).bindings = s.bindings := by
  unfold State.finishEntry; split <;> (try split) <;> rfl
@[simp] theorem finishEntry_lines (s : State) (e : EntryNo) : (s.finishEntry e).lines = s.lines := by
  unfold State.finishEntry; split <;> (try split) <;> rfl
@[simp] theorem finishEntry_writer (s : State) (e : EntryNo) : (s.finishEntry e).writer = s.writer := by
  unfold State.finishEntry; split <;> (try split) <;> rfl
@[simp] theorem finishEntry_regs (s : State) (e : EntryNo) : (s.finishEntry e).regs = s.regs := by
  unfold State.finishEntry; split <;> (try split) <;> rfl

@[simp] theorem giveOutcome_pending (s : State) (e : EntryNo) (p : PortNo) (o : OutcomeCode) : (s.giveOutcome e p o).pending = s.pending := by
  simp [State.giveOutcome]
@[simp] theorem giveOutcome_acts (s : State) (e : EntryNo) (p : PortNo) (o : OutcomeCode) : (s.giveOutcome e p o).acts = s.acts := by
  simp [State.giveOutcome]
@[simp] theorem giveOutcome_cadence (s : State) (e : EntryNo) (p : PortNo) (o : OutcomeCode) : (s.giveOutcome e p o).cadence = s.cadence := by
  simp [State.giveOutcome]
@[simp] theorem giveOutcome_ports (s : State) (e : EntryNo) (p : PortNo) (o : OutcomeCode) : (s.giveOutcome e p o).ports = s.ports := by
  simp [State.giveOutcome]
@[simp] theorem giveOutcome_stampCounter (s : State) (e : EntryNo) (p : PortNo) (o : OutcomeCode) : (s.giveOutcome e p o).stampCounter = s.stampCounter := by
  simp [State.giveOutcome]
@[simp] theorem giveOutcome_reader (s : State) (e : EntryNo) (p : PortNo) (o : OutcomeCode) : (s.giveOutcome e p o).reader = s.reader := by
  simp [State.giveOutcome]
@[simp] theorem giveOutcome_governor (s : State) (e : EntryNo) (p : PortNo) (o : OutcomeCode) : (s.giveOutcome e p o).governor = s.governor := by
  simp [State.giveOutcome]
@[simp] theorem giveOutcome_monitor (s : State) (e : EntryNo) (p : PortNo) (o : OutcomeCode) : (s.giveOutcome e p o).monitor = s.monitor := by
  simp [State.giveOutcome]
@[simp] theorem giveOutcome_groups (s : State) (e : EntryNo) (p : PortNo) (o : OutcomeCode) : (s.giveOutcome e p o).groups = s.groups := by
  simp [State.giveOutcome]
@[simp] theorem giveOutcome_pool (s : State) (e : EntryNo) (p : PortNo) (o : OutcomeCode) : (s.giveOutcome e p o).pool = s.pool := by
  simp [State.giveOutcome]
@[simp] theorem giveOutcome_bindings (s : State) (e : EntryNo) (p : PortNo) (o : OutcomeCode) : (s.giveOutcome e p o).bindings = s.bindings := by
  simp [State.giveOutcome]
@[simp] theorem giveOutcome_lines (s : State) (e : EntryNo) (p : PortNo) (o : OutcomeCode) : (s.giveOutcome e p o).lines = s.lines := by
  simp [State.giveOutcome]
@[simp] theorem giveOutcome_writer (s : State) (e : EntryNo) (p : PortNo) (o : OutcomeCode) : (s.giveOutcome e p o).writer = s.writer := by
  simp [State.giveOutcome]
@[simp] theorem giveOutcome_regs (s : State) (e : EntryNo) (p : PortNo) (o : OutcomeCode) : (s.giveOutcome e p o).regs = s.regs := by
  simp [State.giveOutcome]

@[simp] theorem giveEach_pending (p : PortNo) (o : OutcomeCode) (l : List EntryNo) (s : State) :
    (giveEach p o l s).pending = s.pending := by
  induction l generalizing s with
  | nil => rfl
  | cons e rest ih => simp [giveEach, ih]
@[simp] theorem giveEach_acts (p : PortNo) (o : OutcomeCode) (l : List EntryNo) (s : State) :
    (giveEach p o l s).acts = s.acts := by
  induction l generalizing s with
  | nil => rfl
  | cons e rest ih => simp [giveEach, ih]
@[simp] theorem giveEach_cadence (p : PortNo) (o : OutcomeCode) (l : List EntryNo) (s : State) :
    (giveEach p o l s).cadence = s.cadence := by
  induction l generalizing s with
  | nil => rfl
  | cons e rest ih => simp [giveEach, ih]
@[simp] theorem giveEach_ports (p : PortNo) (o : OutcomeCode) (l : List EntryNo) (s : State) :
    (giveEach p o l s).ports = s.ports := by
  induction l generalizing s with
  | nil => rfl
  | cons e rest ih => simp [giveEach, ih]
@[simp] theorem giveEach_stampCounter (p : PortNo) (o : OutcomeCode) (l : List EntryNo) (s : State) :
    (giveEach p o l s).stampCounter = s.stampCounter := by
  induction l generalizing s with
  | nil => rfl
  | cons e rest ih => simp [giveEach, ih]
@[simp] theorem giveEach_reader (p : PortNo) (o : OutcomeCode) (l : List EntryNo) (s : State) :
    (giveEach p o l s).reader = s.reader := by
  induction l generalizing s with
  | nil => rfl
  | cons e rest ih => simp [giveEach, ih]
@[simp] theorem giveEach_governor (p : PortNo) (o : OutcomeCode) (l : List EntryNo) (s : State) :
    (giveEach p o l s).governor = s.governor := by
  induction l generalizing s with
  | nil => rfl
  | cons e rest ih => simp [giveEach, ih]
@[simp] theorem giveEach_monitor (p : PortNo) (o : OutcomeCode) (l : List EntryNo) (s : State) :
    (giveEach p o l s).monitor = s.monitor := by
  induction l generalizing s with
  | nil => rfl
  | cons e rest ih => simp [giveEach, ih]
@[simp] theorem giveEach_groups (p : PortNo) (o : OutcomeCode) (l : List EntryNo) (s : State) :
    (giveEach p o l s).groups = s.groups := by
  induction l generalizing s with
  | nil => rfl
  | cons e rest ih => simp [giveEach, ih]
@[simp] theorem giveEach_pool (p : PortNo) (o : OutcomeCode) (l : List EntryNo) (s : State) :
    (giveEach p o l s).pool = s.pool := by
  induction l generalizing s with
  | nil => rfl
  | cons e rest ih => simp [giveEach, ih]
@[simp] theorem giveEach_bindings (p : PortNo) (o : OutcomeCode) (l : List EntryNo) (s : State) :
    (giveEach p o l s).bindings = s.bindings := by
  induction l generalizing s with
  | nil => rfl
  | cons e rest ih => simp [giveEach, ih]
@[simp] theorem giveEach_lines (p : PortNo) (o : OutcomeCode) (l : List EntryNo) (s : State) :
    (giveEach p o l s).lines = s.lines := by
  induction l generalizing s with
  | nil => rfl
  | cons e rest ih => simp [giveEach, ih]
@[simp] theorem giveEach_writer (p : PortNo) (o : OutcomeCode) (l : List EntryNo) (s : State) :
    (giveEach p o l s).writer = s.writer := by
  induction l generalizing s with
  | nil => rfl
  | cons e rest ih => simp [giveEach, ih]
@[simp] theorem giveEach_regs (p : PortNo) (o : OutcomeCode) (l : List EntryNo) (s : State) :
    (giveEach p o l s).regs = s.regs := by
  induction l generalizing s with
  | nil => rfl
  | cons e rest ih => simp [giveEach, ih]

@[simp] theorem giveAll_pending (s : State) (p : PortNo) (o : OutcomeCode) :
    (s.giveAll p o).pending = s.pending := by simp [State.giveAll]
@[simp] theorem giveAll_acts (s : State) (p : PortNo) (o : OutcomeCode) :
    (s.giveAll p o).acts = s.acts := by simp [State.giveAll]
@[simp] theorem giveAll_cadence (s : State) (p : PortNo) (o : OutcomeCode) :
    (s.giveAll p o).cadence = s.cadence := by simp [State.giveAll]
@[simp] theorem giveAll_stampCounter (s : State) (p : PortNo) (o : OutcomeCode) :
    (s.giveAll p o).stampCounter = s.stampCounter := by simp [State.giveAll]
@[simp] theorem giveAll_reader (s : State) (p : PortNo) (o : OutcomeCode) :
    (s.giveAll p o).reader = s.reader := by simp [State.giveAll]
@[simp] theorem giveAll_governor (s : State) (p : PortNo) (o : OutcomeCode) :
    (s.giveAll p o).governor = s.governor := by simp [State.giveAll]
@[simp] theorem giveAll_monitor (s : State) (p : PortNo) (o : OutcomeCode) :
    (s.giveAll p o).monitor = s.monitor := by simp [State.giveAll]
@[simp] theorem giveAll_groups (s : State) (p : PortNo) (o : OutcomeCode) :
    (s.giveAll p o).groups = s.groups := by simp [State.giveAll]
@[simp] theorem giveAll_pool (s : State) (p : PortNo) (o : OutcomeCode) :
    (s.giveAll p o).pool = s.pool := by simp [State.giveAll]
@[simp] theorem giveAll_bindings (s : State) (p : PortNo) (o : OutcomeCode) :
    (s.giveAll p o).bindings = s.bindings := by simp [State.giveAll]
@[simp] theorem giveAll_lines (s : State) (p : PortNo) (o : OutcomeCode) :
    (s.giveAll p o).lines = s.lines := by simp [State.giveAll]
@[simp] theorem giveAll_writer (s : State) (p : PortNo) (o : OutcomeCode) :
    (s.giveAll p o).writer = s.writer := by simp [State.giveAll]
@[simp] theorem giveAll_regs (s : State) (p : PortNo) (o : OutcomeCode) :
    (s.giveAll p o).regs = s.regs := by simp [State.giveAll]

/-- A port that gives its waiters an outcome has an empty list, and no other port changes. -/
@[simp] theorem giveAll_port_self (s : State) (p : PortNo) (o : OutcomeCode) :
    (s.giveAll p o).port p = { s.port p with waiters := [] } := by
  simp [State.giveAll, port_congr (giveEach_ports _ _ _ _)]

theorem giveAll_port_ne (s : State) {p q : PortNo} (o : OutcomeCode) (h : q ≠ p) :
    (s.giveAll p o).port q = s.port q := by
  simp [State.giveAll, port_congr (giveEach_ports _ _ _ _), port_modPort_ne _ _ h]

/-- A reading of one port after an update of something else. -/
@[simp] theorem port_setEntry (s : State) (e : EntryNo) (x : Option Entry) (q : PortNo) : (s.setEntry e x).port q = s.port q := rfl
@[simp] theorem port_setWalker (s : State) (w : Walker) (q : PortNo) : (s.setWalker w).port q = s.port q := rfl
@[simp] theorem port_setGovernor (s : State) (g : Governor) (q : PortNo) : (s.setGovernor g).port q = s.port q := rfl
@[simp] theorem port_setMonitor (s : State) (m : Monitor) (q : PortNo) : (s.setMonitor m).port q = s.port q := rfl
@[simp] theorem port_setReader (s : State) (r : Reader) (q : PortNo) : (s.setReader r).port q = s.port q := rfl
@[simp] theorem port_setWriter (s : State) (w : Writer) (q : PortNo) : (s.setWriter w).port q = s.port q := rfl
@[simp] theorem port_setRegs (s : State) (r : Registers) (q : PortNo) : (s.setRegs r).port q = s.port q := rfl
@[simp] theorem port_emit (s : State) (a : List WireAct) (q : PortNo) : (s.emit a).port q = s.port q := rfl
@[simp] theorem port_quiet (s : State) (q : PortNo) : (s.quiet).port q = s.port q := rfl
@[simp] theorem port_withPending (s : State) (l : List Instr) (q : PortNo) : (s.withPending l).port q = s.port q := rfl
@[simp] theorem port_raise (s : State) (c : Cause) (q : PortNo) : (s.raise c).port q = s.port q := rfl
@[simp] theorem port_setGroup (s : State) (g : GroupNo) (x : Group) (q : PortNo) : (s.setGroup g x).port q = s.port q := rfl
@[simp] theorem port_setSweep (s : State) (r : SweepNo) (x : Option Sweep) (q : PortNo) : (s.setSweep r x).port q = s.port q := rfl
@[simp] theorem port_setLine (s : State) (n : LineNo) (l : Line) (q : PortNo) : (s.setLine n l).port q = s.port q := rfl
@[simp] theorem port_setBinding (s : State) (n : LineNo) (b : Option Binding) (q : PortNo) : (s.setBinding n b).port q = s.port q := rfl
@[simp] theorem port_place (s : State) (a : Access) (q : PortNo) : (s.place a).port q = s.port q := rfl
@[simp] theorem port_post (s : State) (x : Slot) (q : PortNo) : (s.post x).port q = s.port q := port_congr (by simp) q
@[simp] theorem port_placeHeaderWrite (s : State) (q : PortNo) : (s.placeHeaderWrite).port q = s.port q := port_congr (by simp) q
@[simp] theorem port_recordOutcome (s : State) (e : EntryNo) (p : PortNo) (o : OutcomeCode) (q : PortNo) : (s.recordOutcome e p o).port q = s.port q := port_congr (by simp) q
@[simp] theorem port_finishEntry (s : State) (e : EntryNo) (q : PortNo) : (s.finishEntry e).port q = s.port q := port_congr (by simp) q
@[simp] theorem port_giveOutcome (s : State) (e : EntryNo) (p : PortNo) (o : OutcomeCode) (q : PortNo) : (s.giveOutcome e p o).port q = s.port q := port_congr (by simp) q

/-! ## The end of an event -/

@[simp] theorem finishDetach_pending (s : State) : (finishDetach s).pending = s.pending := by unfold finishDetach; split <;> rfl
@[simp] theorem finishDetach_acts (s : State) : (finishDetach s).acts = s.acts := by unfold finishDetach; split <;> rfl
@[simp] theorem finishDetach_cadence (s : State) : (finishDetach s).cadence = s.cadence := by unfold finishDetach; split <;> rfl
@[simp] theorem finishDetach_ports (s : State) : (finishDetach s).ports = s.ports := by unfold finishDetach; split <;> rfl
@[simp] theorem finishDetach_stampCounter (s : State) : (finishDetach s).stampCounter = s.stampCounter := by unfold finishDetach; split <;> rfl
@[simp] theorem finishDetach_reader (s : State) : (finishDetach s).reader = s.reader := by unfold finishDetach; split <;> rfl
@[simp] theorem finishDetach_governor (s : State) : (finishDetach s).governor = s.governor := by unfold finishDetach; split <;> rfl
@[simp] theorem finishDetach_monitor (s : State) : (finishDetach s).monitor = s.monitor := by unfold finishDetach; split <;> rfl
@[simp] theorem finishDetach_inflight (s : State) : (finishDetach s).inflight = s.inflight := by unfold finishDetach; split <;> rfl
@[simp] theorem finishDetach_groups (s : State) : (finishDetach s).groups = s.groups := by unfold finishDetach; split <;> rfl
@[simp] theorem finishDetach_pool (s : State) : (finishDetach s).pool = s.pool := by unfold finishDetach; split <;> rfl
@[simp] theorem finishDetach_bindings (s : State) : (finishDetach s).bindings = s.bindings := by unfold finishDetach; split <;> rfl
@[simp] theorem finishDetach_lines (s : State) : (finishDetach s).lines = s.lines := by unfold finishDetach; split <;> rfl
@[simp] theorem finishDetach_writer (s : State) : (finishDetach s).writer = s.writer := by unfold finishDetach; split <;> rfl

@[simp] theorem silenceWriter_pending (s : State) : (silenceWriter s).pending = s.pending := by unfold silenceWriter; split <;> rfl
@[simp] theorem silenceWriter_acts (s : State) : (silenceWriter s).acts = s.acts := by unfold silenceWriter; split <;> rfl
@[simp] theorem silenceWriter_cadence (s : State) : (silenceWriter s).cadence = s.cadence := by unfold silenceWriter; split <;> rfl
@[simp] theorem silenceWriter_ports (s : State) : (silenceWriter s).ports = s.ports := by unfold silenceWriter; split <;> rfl
@[simp] theorem silenceWriter_stampCounter (s : State) : (silenceWriter s).stampCounter = s.stampCounter := by unfold silenceWriter; split <;> rfl
@[simp] theorem silenceWriter_reader (s : State) : (silenceWriter s).reader = s.reader := by unfold silenceWriter; split <;> rfl
@[simp] theorem silenceWriter_governor (s : State) : (silenceWriter s).governor = s.governor := by unfold silenceWriter; split <;> rfl
@[simp] theorem silenceWriter_monitor (s : State) : (silenceWriter s).monitor = s.monitor := by unfold silenceWriter; split <;> rfl
@[simp] theorem silenceWriter_walker (s : State) : (silenceWriter s).walker = s.walker := by unfold silenceWriter; split <;> rfl
@[simp] theorem silenceWriter_inflight (s : State) : (silenceWriter s).inflight = s.inflight := by unfold silenceWriter; split <;> rfl
@[simp] theorem silenceWriter_groups (s : State) : (silenceWriter s).groups = s.groups := by unfold silenceWriter; split <;> rfl
@[simp] theorem silenceWriter_pool (s : State) : (silenceWriter s).pool = s.pool := by unfold silenceWriter; split <;> rfl
@[simp] theorem silenceWriter_bindings (s : State) : (silenceWriter s).bindings = s.bindings := by unfold silenceWriter; split <;> rfl
@[simp] theorem silenceWriter_lines (s : State) : (silenceWriter s).lines = s.lines := by unfold silenceWriter; split <;> rfl
@[simp] theorem silenceWriter_regs (s : State) : (silenceWriter s).regs = s.regs := by unfold silenceWriter; split <;> rfl

@[simp] theorem beginSlotWrite_pending (s : State) : (beginSlotWrite s).pending = s.pending := by
  unfold beginSlotWrite; split <;> (try split) <;> rfl
@[simp] theorem beginSlotWrite_acts (s : State) : (beginSlotWrite s).acts = s.acts := by
  unfold beginSlotWrite; split <;> (try split) <;> rfl
@[simp] theorem beginSlotWrite_cadence (s : State) : (beginSlotWrite s).cadence = s.cadence := by
  unfold beginSlotWrite; split <;> (try split) <;> rfl
@[simp] theorem beginSlotWrite_ports (s : State) : (beginSlotWrite s).ports = s.ports := by
  unfold beginSlotWrite; split <;> (try split) <;> rfl
@[simp] theorem beginSlotWrite_stampCounter (s : State) : (beginSlotWrite s).stampCounter = s.stampCounter := by
  unfold beginSlotWrite; split <;> (try split) <;> rfl
@[simp] theorem beginSlotWrite_reader (s : State) : (beginSlotWrite s).reader = s.reader := by
  unfold beginSlotWrite; split <;> (try split) <;> rfl
@[simp] theorem beginSlotWrite_governor (s : State) : (beginSlotWrite s).governor = s.governor := by
  unfold beginSlotWrite; split <;> (try split) <;> rfl
@[simp] theorem beginSlotWrite_monitor (s : State) : (beginSlotWrite s).monitor = s.monitor := by
  unfold beginSlotWrite; split <;> (try split) <;> rfl
@[simp] theorem beginSlotWrite_walker (s : State) : (beginSlotWrite s).walker = s.walker := by
  unfold beginSlotWrite; split <;> (try split) <;> rfl
@[simp] theorem beginSlotWrite_inflight (s : State) : (beginSlotWrite s).inflight = s.inflight := by
  unfold beginSlotWrite; split <;> (try split) <;> rfl
@[simp] theorem beginSlotWrite_groups (s : State) : (beginSlotWrite s).groups = s.groups := by
  unfold beginSlotWrite; split <;> (try split) <;> rfl
@[simp] theorem beginSlotWrite_pool (s : State) : (beginSlotWrite s).pool = s.pool := by
  unfold beginSlotWrite; split <;> (try split) <;> rfl
@[simp] theorem beginSlotWrite_bindings (s : State) : (beginSlotWrite s).bindings = s.bindings := by
  unfold beginSlotWrite; split <;> (try split) <;> rfl
@[simp] theorem beginSlotWrite_lines (s : State) : (beginSlotWrite s).lines = s.lines := by
  unfold beginSlotWrite; split <;> (try split) <;> rfl
@[simp] theorem beginSlotWrite_regs (s : State) : (beginSlotWrite s).regs = s.regs := by
  unfold beginSlotWrite; split <;> (try split) <;> rfl

@[simp] theorem beginAccess_pending (s : State) : (beginAccess s).pending = s.pending := by
  unfold beginAccess; split <;> (try split) <;> rfl
@[simp] theorem beginAccess_acts (s : State) : (beginAccess s).acts = s.acts := by
  unfold beginAccess; split <;> (try split) <;> rfl
@[simp] theorem beginAccess_cadence (s : State) : (beginAccess s).cadence = s.cadence := by
  unfold beginAccess; split <;> (try split) <;> rfl
@[simp] theorem beginAccess_ports (s : State) : (beginAccess s).ports = s.ports := by
  unfold beginAccess; split <;> (try split) <;> rfl
@[simp] theorem beginAccess_stampCounter (s : State) : (beginAccess s).stampCounter = s.stampCounter := by
  unfold beginAccess; split <;> (try split) <;> rfl
@[simp] theorem beginAccess_reader (s : State) : (beginAccess s).reader = s.reader := by
  unfold beginAccess; split <;> (try split) <;> rfl
@[simp] theorem beginAccess_governor (s : State) : (beginAccess s).governor = s.governor := by
  unfold beginAccess; split <;> (try split) <;> rfl
@[simp] theorem beginAccess_monitor (s : State) : (beginAccess s).monitor = s.monitor := by
  unfold beginAccess; split <;> (try split) <;> rfl
@[simp] theorem beginAccess_inflight (s : State) : (beginAccess s).inflight = s.inflight := by
  unfold beginAccess; split <;> (try split) <;> rfl
@[simp] theorem beginAccess_groups (s : State) : (beginAccess s).groups = s.groups := by
  unfold beginAccess; split <;> (try split) <;> rfl
@[simp] theorem beginAccess_pool (s : State) : (beginAccess s).pool = s.pool := by
  unfold beginAccess; split <;> (try split) <;> rfl
@[simp] theorem beginAccess_bindings (s : State) : (beginAccess s).bindings = s.bindings := by
  unfold beginAccess; split <;> (try split) <;> rfl
@[simp] theorem beginAccess_lines (s : State) : (beginAccess s).lines = s.lines := by
  unfold beginAccess; split <;> (try split) <;> rfl
@[simp] theorem beginAccess_writer (s : State) : (beginAccess s).writer = s.writer := by
  unfold beginAccess; split <;> (try split) <;> rfl
@[simp] theorem beginAccess_regs (s : State) : (beginAccess s).regs = s.regs := by
  unfold beginAccess; split <;> (try split) <;> rfl

@[simp] theorem settle_pending (s : State) : (settle s).pending = s.pending := by simp [settle]
@[simp] theorem settle_acts (s : State) : (settle s).acts = s.acts := by simp [settle]
@[simp] theorem settle_cadence (s : State) : (settle s).cadence = s.cadence := by simp [settle]
@[simp] theorem settle_ports (s : State) : (settle s).ports = s.ports := by simp [settle]
@[simp] theorem settle_stampCounter (s : State) : (settle s).stampCounter = s.stampCounter := by simp [settle]
@[simp] theorem settle_reader (s : State) : (settle s).reader = s.reader := by simp [settle]
@[simp] theorem settle_governor (s : State) : (settle s).governor = s.governor := by simp [settle]
@[simp] theorem settle_monitor (s : State) : (settle s).monitor = s.monitor := by simp [settle]
@[simp] theorem settle_inflight (s : State) : (settle s).inflight = s.inflight := by simp [settle]
@[simp] theorem settle_groups (s : State) : (settle s).groups = s.groups := by simp [settle]
@[simp] theorem settle_pool (s : State) : (settle s).pool = s.pool := by simp [settle]
@[simp] theorem settle_bindings (s : State) : (settle s).bindings = s.bindings := by simp [settle]
@[simp] theorem settle_lines (s : State) : (settle s).lines = s.lines := by simp [settle]

@[simp] theorem settle_port (s : State) (q : PortNo) : (settle s).port q = s.port q := port_congr (by simp) q

@[simp] theorem settle_entry (s : State) (e : EntryNo) : (settle s).entry e = s.entry e :=
  entry_congr (by simp) e

/-- An operation at a port changes the same ports with and without the posting that follows it. -/
@[simp] theorem atPort_port (s : State) (p q : PortNo) (f : State → State) :
    (s.atPort p f).port q = (f s).port q := by
  unfold State.atPort State.postIfChanged; split <;> simp

@[simp] theorem atPort_pending (s : State) (p : PortNo) (f : State → State) :
    (s.atPort p f).pending = (f s).pending := by
  unfold State.atPort State.postIfChanged; split <;> simp
@[simp] theorem atPort_acts (s : State) (p : PortNo) (f : State → State) :
    (s.atPort p f).acts = (f s).acts := by
  unfold State.atPort State.postIfChanged; split <;> simp
@[simp] theorem atPort_cadence (s : State) (p : PortNo) (f : State → State) :
    (s.atPort p f).cadence = (f s).cadence := by
  unfold State.atPort State.postIfChanged; split <;> simp
@[simp] theorem atPort_ports (s : State) (p : PortNo) (f : State → State) :
    (s.atPort p f).ports = (f s).ports := by
  unfold State.atPort State.postIfChanged; split <;> simp
@[simp] theorem atPort_stampCounter (s : State) (p : PortNo) (f : State → State) :
    (s.atPort p f).stampCounter = (f s).stampCounter := by
  unfold State.atPort State.postIfChanged; split <;> simp
@[simp] theorem atPort_reader (s : State) (p : PortNo) (f : State → State) :
    (s.atPort p f).reader = (f s).reader := by
  unfold State.atPort State.postIfChanged; split <;> simp
@[simp] theorem atPort_governor (s : State) (p : PortNo) (f : State → State) :
    (s.atPort p f).governor = (f s).governor := by
  unfold State.atPort State.postIfChanged; split <;> simp
@[simp] theorem atPort_monitor (s : State) (p : PortNo) (f : State → State) :
    (s.atPort p f).monitor = (f s).monitor := by
  unfold State.atPort State.postIfChanged; split <;> simp
@[simp] theorem atPort_walker (s : State) (p : PortNo) (f : State → State) :
    (s.atPort p f).walker = (f s).walker := by
  unfold State.atPort State.postIfChanged; split <;> simp
@[simp] theorem atPort_inflight (s : State) (p : PortNo) (f : State → State) :
    (s.atPort p f).inflight = (f s).inflight := by
  unfold State.atPort State.postIfChanged; split <;> simp
@[simp] theorem atPort_groups (s : State) (p : PortNo) (f : State → State) :
    (s.atPort p f).groups = (f s).groups := by
  unfold State.atPort State.postIfChanged; split <;> simp
@[simp] theorem atPort_pool (s : State) (p : PortNo) (f : State → State) :
    (s.atPort p f).pool = (f s).pool := by
  unfold State.atPort State.postIfChanged; split <;> simp
@[simp] theorem atPort_bindings (s : State) (p : PortNo) (f : State → State) :
    (s.atPort p f).bindings = (f s).bindings := by
  unfold State.atPort State.postIfChanged; split <;> simp
@[simp] theorem atPort_lines (s : State) (p : PortNo) (f : State → State) :
    (s.atPort p f).lines = (f s).lines := by
  unfold State.atPort State.postIfChanged; split <;> simp
@[simp] theorem atPort_regs (s : State) (p : PortNo) (f : State → State) :
    (s.atPort p f).regs = (f s).regs := by
  unfold State.atPort State.postIfChanged; split <;> simp

/-- An event answers a next state: its body's, settled. -/
theorem event_eq (body : State → State) (s : State) : event body s = .next (settle (body s.quiet)) := rfl

/-- An event at a port answers a next state. -/
theorem portEvent_eq (p : PortNo) (body : State → State) (s : State) :
    portEvent p body s = .next (settle (s.quiet.atPort p body)) := rfl

/-- A command that cannot occur leaves everything but the record of wire acts. -/
theorem noEvent_eq (s : State) : noEvent s = .next s.quiet := rfl

/-! ## Lane symbols (R46) -/

/-- The bit of a symbol that crosses the lane at a place. -/
theorem laneBits_get (b : Byte) (k : Fin 8) : (laneBits b).get k = b.getMsbD k := by
  simp [Table.get_eq_getElem, laneBits]

/-- Bits that agree with a byte at every place are its lane bits. -/
theorem eq_laneBits {w : LaneBits} {b : Byte} (h : ∀ k : Fin 8, w.get k = b.getMsbD k) : w = laneBits b :=
  Table.ext_get fun k => by rw [h, laneBits_get]

@[simp] theorem laneData_laneBits (b : Byte) : laneData (laneBits b) = b := by
  revert b; decide +kernel

/-- The parity test of a received symbol, on the ones of its data. -/
theorem parityGood_laneBits (b : Byte) (parity : Bool) :
    parityGood (laneBits b) parity = ((ones b + if parity then 1 else 0) % 2 == 1) := by
  revert b parity; decide +kernel

/-- Bytes whose bits agree with a table of bytes at every place are assembled to that table (R71). -/
theorem map_laneData {bits : Table LaneBits 8} {bytes : Table Byte 8}
    (h : ∀ i k : Fin 8, (bits.get i).get k = (bytes.get i).getMsbD k) : bits.map laneData = bytes :=
  Table.ext_get fun i => by rw [Table.get_map, eq_laneBits (h i), laneData_laneBits]

/-- The address of the identity memories, bit by bit. -/
theorem identityDevice_bits : identityDevice = ⟨[true, false, true, false, false, true, false], rfl⟩ := by decide

/-- The offset of the identity record, bit by bit. -/
theorem identityOffset_bits :
    identityOffset = ⟨[false, false, false, false, false, false, false, false], rfl⟩ := by decide

/-! ## The order of insertions and joins (R69, R78) -/

theorem mem_allPorts (p : PortNo) : p ∈ allPorts := by revert p; decide

/-- When a debounced insertion waits to be taken. -/
theorem insertDue_iff (x : Port) :
    x.insertDue = true ↔ x.plugDebounce = some 0 ∧ x.plugLevel = true ∧ x.plugged = false := by
  simp [Port.insertDue, and_assoc]

/-- When a join is on its way. -/
theorem joining_iff (x : Port) : x.joining = true ↔ .join ∈ x.toReader := by
  simp [Port.joining]

/-- When a debounced insertion may be taken. -/
theorem insertsNext_iff (s : State) (p : PortNo) :
    s.insertsNext p = true ↔
      ∀ q, (s.port q).insertDue = true → (s.port q).insertWait ≤ (s.port p).insertWait := by
  simp [State.insertsNext, mem_allPorts, Bool.or_eq_true, Decidable.imp_iff_not_or]

/-- When a join may be taken. -/
theorem joinsNext_iff (s : State) (p : PortNo) :
    s.joinsNext p = true ↔
      ∀ q, (s.port q).joining = true → (s.port p).joinTicket ≤ (s.port q).joinTicket := by
  simp [State.joinsNext, mem_allPorts, Bool.or_eq_true, Decidable.imp_iff_not_or]

/-- The next ticket depends on the ports' joins alone. -/
theorem nextTicket_congr {s t : State} (h : ∀ q, (t.port q).ticketsUsed = (s.port q).ticketsUsed) :
    t.nextTicket = s.nextTicket := by
  simp [State.nextTicket, h]

/-- The next ticket is behind that of every join on its way. -/
theorem joinTicket_lt_nextTicket {s : State} {q : PortNo} (h : (s.port q).joining = true) :
    (s.port q).joinTicket < s.nextTicket := by
  have hle : ∀ (l : List Nat) (n : Nat), n ∈ l → n ≤ l.foldr max 0 := by
    intro l n hn
    induction l with
    | nil => simp at hn
    | cons a l ih =>
      rcases List.mem_cons.1 hn with rfl | hn
      · exact Nat.le_max_left _ _
      · exact Nat.le_trans (ih hn) (Nat.le_max_right _ _)
  have hq := hle _ _ (List.mem_map_of_mem (f := fun q => (s.port q).ticketsUsed) (mem_allPorts q))
  simp only [Port.ticketsUsed, h, if_true] at hq
  exact hq

/-- A join whose turn it is is taken. -/
theorem execReaderJoin_taken {p : PortNo} {rest : List ReaderMsg} {s : State}
    (h : (s.port p).toReader = .join :: rest)
    (hn : ∀ q, (s.port q).joining = true → (s.port p).joinTicket ≤ (s.port q).joinTicket) :
    execReaderJoin p s = event (takeJoin p) s := by
  simp [execReaderJoin, h, (joinsNext_iff s p).2 hn]

/-- A join waits while one handed in an earlier event is on its way. -/
theorem execReaderJoin_waits {p q : PortNo} {s : State} (hd : (s.port q).joining = true)
    (hw : (s.port q).joinTicket < (s.port p).joinTicket) : execReaderJoin p s = noEvent s := by
  have hn : ¬ s.joinsNext p = true := fun h => absurd ((joinsNext_iff s p).1 h q hd) (by omega)
  simp [execReaderJoin, hn]

/-- An expired plug debounce is taken, an insertion when its turn has come. -/
theorem execPlugDebounceExpiry_taken {p : PortNo} {s : State} (h : (s.port p).plugDebounce = some 0)
    (hn : (s.port p).insertDue = true →
      ∀ q, (s.port q).insertDue = true → (s.port q).insertWait ≤ (s.port p).insertWait) :
    execPlugDebounceExpiry p s = portEvent p (plugDebounced p) s := by
  rw [execPlugDebounceExpiry, if_pos ⟨h, fun hd => (insertsNext_iff s p).2 (hn hd)⟩]

/-- An insertion waits while one of an earlier tick does. -/
theorem execPlugDebounceExpiry_waits {p q : PortNo} {s : State} (hp : (s.port p).insertDue = true)
    (hq : (s.port q).insertDue = true) (hw : (s.port p).insertWait < (s.port q).insertWait) :
    execPlugDebounceExpiry p s = noEvent s := by
  rw [execPlugDebounceExpiry, if_neg]
  rintro ⟨-, hn⟩
  have := (insertsNext_iff s p).1 (hn hp) q hq
  omega

/-! ## Leaving the Reader Queue (R29, R69) -/

/-- Outside IDENTIFYING nothing is left. -/
theorem leaveReader_of_ne {p : PortNo} {s : State} (h : (s.port p).state ≠ .identifying) :
    leaveReader p s = s := by
  simp [leaveReader, h]

/-- The reader loses a port that waits in its queue, and nothing else. -/
theorem leaveReader_reader {p : PortNo} {s : State} (h : (s.port p).state = .identifying) :
    (leaveReader p s).reader =
      if p ∈ s.reader.queue ∧ s.reader.state.serves p = false then
        { s.reader with queue := s.reader.queue.erase p }
      else s.reader := by
  by_cases hq : p ∈ s.reader.queue <;> by_cases hs : s.reader.state.serves p = true <;>
    simp [leaveReader, h, hq, hs, State.tellReader] <;> split <;> simp

/-! ## Claims (R96) -/

/-- A claim that may join does so, and a serving check follows. -/
theorem takeClaim_joins {p : PortNo} {s : State} (hq : p ∉ s.governor.queue)
    (hh : s.governor.holders.get p = false) :
    takeClaim p s =
      servingCheck
        (((takeMessage p s).setGovernor { s.governor with queue := s.governor.queue ++ [p] }).post .governor) := by
  simp [takeClaim, takeMessage, hq, hh]

/-- The claim of a port in the queue, or of a slot holder, is taken and joins nothing (log entry 35). -/
theorem takeClaim_kept {p : PortNo} {s : State}
    (h : p ∈ s.governor.queue ∨ s.governor.holders.get p = true) : takeClaim p s = takeMessage p s := by
  simp [takeClaim, takeMessage, h]

end Sys2Proof.Machine
end

