-- ==== Sys2Proof/Laws/Settle.lean ====
section
/-! SUPPORT. What ends every event: on a settled state nothing more than the next slot write begins; after an
event the state is settled. -/

set_option Elab.async false

namespace Sys2Proof.Machine

/-- The walker of a settled state has nothing to begin. -/
theorem beginAccess_of_settled {s t : State} (h : s.settled = true) (hw : t.walker = s.walker) :
    beginAccess t = t := by
  unfold beginAccess
  rw [hw]
  split
  · rename_i a rest hc ha
    simp only [State.settled, hc, ha, Bool.and_eq_true, Bool.not_eq_true'] at h
    simp [h.1.1]
  · rfl

/-- A settled state is not a DETACHING one with nothing left. -/
theorem finishDetach_of_settled {s t : State} (h : s.settled = true) (hw : t.walker = s.walker)
    (hi : t.inflight = s.inflight) : finishDetach t = t := by
  unfold finishDetach
  rw [hw, hi, if_neg]
  rintro ⟨h1, h2, h3, h4⟩
  simp [State.settled, h1, h2, h3, h4] at h

/-- An event that leaves a settled state's walker and entries alone leaves them so as it ends, and sets no
cause of its own. -/
theorem settle_of_settled {s t : State} (h : s.settled = true) (hw : t.walker = s.walker)
    (hi : t.inflight = s.inflight) :
    (settle t).walker = s.walker ∧ (settle t).regs = t.regs ∧ (settle t).inflight = s.inflight := by
  unfold settle
  rw [finishDetach_of_settled h hw hi, beginAccess_of_settled h (by simp [hw])]
  simp [hw, hi]

/-- The writer as an event ends, when its walker and entries were left alone. -/
theorem settle_writer_of_settled {s t : State} (h : s.settled = true) (hw : t.walker = s.walker)
    (hi : t.inflight = s.inflight) : (settle t).writer = (beginSlotWrite (silenceWriter t)).writer := by
  unfold settle
  rw [finishDetach_of_settled h hw hi, beginAccess_of_settled h (by simp [hw])]

/-- Raising the serial of one slot changes no other and no list. -/
theorem serialOf_raiseSerial_ne (w : Writer) {x y : Slot} (h : y ≠ x) :
    (w.raiseSerial x).serialOf y = w.serialOf y := by
  cases x <;> cases y <;> simp only [Writer.raiseSerial, Writer.serialOf]
  · rw [Table.get_set_ne _ _ (fun e => h (by rw [e]))]
  · rw [Table.get_set_ne _ _ (fun e => h (by rw [e]))]
  · exact absurd rfl h

@[simp] theorem raiseSerial_posting (w : Writer) (x : Slot) : (w.raiseSerial x).posting = w.posting := by
  cases x <;> rfl

@[simp] theorem raiseSerial_current (w : Writer) (x : Slot) : (w.raiseSerial x).current = w.current := by
  cases x <;> rfl

/-- Beginning a write takes the head slot off the list and raises its serial alone. -/
theorem beginSlotWrite_writer (s : State) :
    (beginSlotWrite s).writer = s.writer ∨
      ∃ x rest, s.writer.posting = x :: rest ∧ s.writer.current = none ∧
        (beginSlotWrite s).writer.posting = rest ∧
        (beginSlotWrite s).writer.current.map (·.slot) = some x ∧
        (∀ y, (beginSlotWrite s).writer.serialOf y = (s.writer.raiseSerial x).serialOf y) := by
  unfold beginSlotWrite
  split
  · split
    · rename_i x rest b hc hp hb
      refine Or.inr ⟨x, rest, hp, hc, by simp, rfl, ?_⟩
      intro y
      cases x <;> cases y <;> rfl
    · exact Or.inl rfl
  · exact Or.inl rfl

/-- While the writer is silent a settled state has nothing posted. -/
theorem posting_nil_of_silent {s : State} (h : s.settled = true) (ha : s.walker.state.attached = false) :
    s.writer.posting = [] := by
  simp only [State.settled, Bool.and_eq_true] at h
  have h2 := h.1.2
  simp only [ha, Bool.false_eq_true, if_false, Bool.and_eq_true, List.isEmpty_iff] at h2
  exact h2.1

/-- A settled state whose writer could write has a write in progress or nothing posted. -/
theorem posting_nil_of_idle {s : State} (h : s.settled = true) (ha : s.walker.state.attached = true)
    (hc : s.writer.current = none) (hb : s.walker.board.isSome = true) : s.writer.posting = [] := by
  simp only [State.settled, Bool.and_eq_true] at h
  have h2 := h.1.2
  obtain ⟨b, hb⟩ := Option.isSome_iff_exists.mp hb
  simpa [ha, hc, hb] using h2

/-- The writer as an event ends that posted one slot or none. -/
theorem onlySlot_of_settled {s t : State} (h : s.settled = true) (hw : t.walker = s.walker)
    (hi : t.inflight = s.inflight) (x : Slot)
    (hp : t.writer = s.writer ∨ t.writer = { s.writer with posting := s.writer.posting ++ [x] }) :
    OtherSlotsKept x s (settle t) := by
  intro y hy
  rw [settle_writer_of_settled h hw hi]
  by_cases ha : s.walker.state.attached = true
  · have hsil : silenceWriter t = t := by unfold silenceWriter; rw [hw, if_pos ha]
    rw [hsil]
    rcases beginSlotWrite_writer t with hb | ⟨z, rest, h1, h2, h3, _, h5⟩
    · rw [hb]
      rcases hp with hp | hp <;> rw [hp]
      · simp
      · refine ⟨by simp [hy], ?_⟩
        cases y <;> rfl
    · have hcur : s.writer.current = none := by
        rcases hp with hp | hp <;> simpa [hp] using h2
      by_cases hbd : s.walker.board.isSome = true
      · have hnil := posting_nil_of_idle h ha hcur hbd
        rcases hp with hp | hp
        · rw [hp, hnil] at h1; exact absurd h1 (by simp)
        · rw [hp, hnil] at h1
          simp only [List.nil_append, List.cons.injEq] at h1
          obtain ⟨rfl, rfl⟩ := h1
          refine ⟨by simp [h3, hnil], ?_⟩
          rw [h5, serialOf_raiseSerial_ne _ hy, hp]
          cases y <;> rfl
      · have : beginSlotWrite t = t := by
          unfold beginSlotWrite
          have hbn : t.walker.board = none := by simpa [hw] using hbd
          simp [hbn]
        rw [this] at h3
        rw [h3] at h1
        exact absurd h1 (by simp)
  · have ha : s.walker.state.attached = false := by simpa using ha
    have hnil := posting_nil_of_silent h ha
    have hns : (beginSlotWrite (silenceWriter t)).writer = (silenceWriter t).writer := by
      unfold beginSlotWrite
      simp [hw, ha]
    rw [hns]
    unfold silenceWriter
    rw [hw, ha]
    refine ⟨by simp [hnil], ?_⟩
    rcases hp with hp | hp <;> rw [hp] <;> cases y <;> rfl

/-- A slot that an event has put on the list of a settled state is posted as the event ends, while the writer
writes. -/
theorem posted_of_settled {s t : State} (h : s.settled = true) (hw : t.walker = s.walker)
    (hi : t.inflight = s.inflight) (x : Slot) (hx : x ∈ t.writer.posting)
    (hp : t.writer = s.writer ∨ t.writer = { s.writer with posting := s.writer.posting ++ [x] }) :
    PostedWhileAttached x s (settle t) := by
  intro ha hbd
  rw [(settle_of_settled h hw hi).1] at ha hbd
  unfold SlotPosted
  rw [settle_writer_of_settled h hw hi]
  have hsil : silenceWriter t = t := by unfold silenceWriter; rw [hw, if_pos ha]
  rw [hsil]
  rcases beginSlotWrite_writer t with hb | ⟨z, rest, h1, h2, h3, h4, h5⟩
  · exact Or.inl (by rw [hb]; exact hx)
  · have hcur : s.writer.current = none := by
      rcases hp with hp | hp <;> simpa [hp] using h2
    have hnil := posting_nil_of_idle h ha hcur hbd
    rcases hp with hp | hp
    · rw [hp, hnil] at h1; exact absurd h1 (by simp)
    · rw [hp, hnil] at h1
      simp only [List.nil_append, List.cons.injEq] at h1
      obtain ⟨rfl, rfl⟩ := h1
      refine Or.inr ⟨hcur, h4, ?_⟩
      rw [h5, hp]
      cases x <;>
        simp [Writer.raiseSerial, Writer.serialOf, Table.get_set_self, BitVec.toNat_add]

end Sys2Proof.Machine
end

