-- ==== Sys2Proof/Laws/PortStep.lean ====
section
/-! SUPPORT. What the operations of a port's sequencer and link engine can touch: one relation, and for each
operation that it may follow. -/

set_option Elab.async false

namespace Sys2Proof.Machine

/-- From `s` to `t` nothing has changed but port `p`, the causes, the posting of port `p`'s slot, the In-flight
Table, the walker's access list, the reader, the stamp counter and the wire acts. -/
structure PortStep (p : PortNo) (s t : State) : Prop where
  rig : RigKept s t
  others : OtherPortsKept p s t
  walker : WalkerKeptButAccesses s t
  regs : RegsKeptButAttn s t
  writer : t.writer = s.writer ∨
    (Slot.port p ∉ s.writer.posting ∧ t.writer = { s.writer with posting := s.writer.posting ++ [.port p] })

namespace PortStep

variable {p : PortNo} {s t u : State}

theorem refl (p : PortNo) (s : State) : PortStep p s s :=
  ⟨⟨rfl, ⟨rfl, rfl⟩, ⟨rfl, rfl, rfl⟩, rfl, rfl⟩, fun _ _ => rfl, rfl, rfl, Or.inl rfl⟩

/-- A later step that leaves the queue, the clock, the groups, the supply and the other ports alone. -/
theorem follow (h : PortStep p s t) (hr : RigKept t u) (ho : OtherPortsKept p t u)
    (hw : WalkerKeptButAccesses t u) (hg : RegsKeptButAttn t u)
    (hp : u.writer = t.writer ∨
      (Slot.port p ∉ t.writer.posting ∧ u.writer = { t.writer with posting := t.writer.posting ++ [.port p] })) :
    PortStep p s u where
  rig :=
    ⟨hr.1.trans h.rig.1, ⟨hr.2.1.1.trans h.rig.2.1.1, hr.2.1.2.trans h.rig.2.1.2⟩,
      ⟨hr.2.2.1.1.trans h.rig.2.2.1.1, hr.2.2.1.2.1.trans h.rig.2.2.1.2.1,
        hr.2.2.1.2.2.trans h.rig.2.2.1.2.2⟩,
      hr.2.2.2.1.trans h.rig.2.2.2.1, hr.2.2.2.2.trans h.rig.2.2.2.2⟩
  others := fun q hq => (ho q hq).trans (h.others q hq)
  walker := hw.trans (by rw [h.walker])
  regs := hg.trans (by rw [h.regs])
  writer := by
    rcases hp with hp | ⟨hn, hp⟩
    · rw [hp]; exact h.writer
    · rcases h.writer with h1 | ⟨h1, h2⟩
      · rw [h1] at hn hp; exact Or.inr ⟨hn, hp⟩
      · rw [h2] at hn; exact absurd (by simp) hn

theorem modPort (h : PortStep p s t) (f : Port → Port) : PortStep p s (t.modPort p f) :=
  h.follow ⟨rfl, ⟨rfl, rfl⟩, ⟨rfl, rfl, rfl⟩, rfl, rfl⟩ (fun _ hq => port_modPort_ne _ _ hq) rfl rfl (Or.inl rfl)

theorem raise (h : PortStep p s t) (c : Cause) : PortStep p s (t.raise c) :=
  h.follow ⟨rfl, ⟨rfl, rfl⟩, ⟨rfl, rfl, rfl⟩, rfl, rfl⟩ (fun _ _ => rfl) rfl rfl (Or.inl rfl)

theorem emit (h : PortStep p s t) (a : List WireAct) : PortStep p s (t.emit a) :=
  h.follow ⟨rfl, ⟨rfl, rfl⟩, ⟨rfl, rfl, rfl⟩, rfl, rfl⟩ (fun _ _ => rfl) rfl rfl (Or.inl rfl)

theorem setReader (h : PortStep p s t) (r : Reader) : PortStep p s (t.setReader r) :=
  h.follow ⟨rfl, ⟨rfl, rfl⟩, ⟨rfl, rfl, rfl⟩, rfl, rfl⟩ (fun _ _ => rfl) rfl rfl (Or.inl rfl)

theorem post (h : PortStep p s t) : PortStep p s (t.post (.port p)) := by
  by_cases hm : Slot.port p ∈ t.writer.posting
  · have : t.post (.port p) = t := by unfold State.post; rw [if_pos hm]
    rw [this]; exact h
  · have : t.post (.port p) = t.setWriter { t.writer with posting := t.writer.posting ++ [.port p] } := by
      unfold State.post; rw [if_neg hm]
    rw [this]
    exact h.follow ⟨rfl, ⟨rfl, rfl⟩, ⟨rfl, rfl, rfl⟩, rfl, rfl⟩ (fun _ _ => rfl) rfl rfl (Or.inr ⟨hm, rfl⟩)

theorem drawStamp (h : PortStep p s t) : PortStep p s (t.drawStamp p) :=
  h.follow ⟨rfl, ⟨rfl, rfl⟩, ⟨rfl, rfl, rfl⟩, rfl, rfl⟩ (fun _ hq => by
    unfold State.drawStamp; exact port_modPort_ne _ _ hq) rfl rfl (Or.inl rfl)

theorem tellGovernor (h : PortStep p s t) (m : GovMsg) : PortStep p s (t.tellGovernor p m) := h.modPort _

theorem tellReader (h : PortStep p s t) (m : ReaderMsg) : PortStep p s (t.tellReader p m) := h.modPort _
theorem handJoin (h : PortStep p s t) (ticket : Nat) : PortStep p s (t.handJoin p ticket) := h.modPort _

end PortStep

/-- An outcome given to one entry leaves the walker but for its access list. -/
theorem giveOutcome_walker (s : State) (e : EntryNo) (p : PortNo) (o : OutcomeCode) :
    WalkerKeptButAccesses s (s.giveOutcome e p o) := by
  unfold WalkerKeptButAccesses State.giveOutcome State.finishEntry
  have hw : (s.recordOutcome e p o).walker = s.walker := by simp
  split
  · rw [hw]
  · split <;> simp [State.place, State.setEntry, State.setWalker]

theorem WalkerKeptButAccesses.trans {s t u : State} (h1 : WalkerKeptButAccesses s t)
    (h2 : WalkerKeptButAccesses t u) : WalkerKeptButAccesses s u := by
  unfold WalkerKeptButAccesses at *
  exact h2.trans (by rw [h1])

theorem giveEach_walker (p : PortNo) (o : OutcomeCode) (l : List EntryNo) (s : State) :
    WalkerKeptButAccesses s (giveEach p o l s) := by
  induction l generalizing s with
  | nil => rfl
  | cons e rest ih =>
    exact (giveOutcome_walker s e p o).trans (ih (s.giveOutcome e p o))

namespace PortStep

variable {p : PortNo} {s t u : State}

theorem giveAll (h : PortStep p s t) (o : OutcomeCode) : PortStep p s (t.giveAll p o) :=
  h.follow (by simp [RigKept, ClockAndLinesKept, GroupsKept, SupplyKept]) (fun _ hq => giveAll_port_ne _ _ hq)
    (by
      unfold State.giveAll
      have := giveEach_walker p o (t.port p).waiters (t.modPort p fun x => { x with waiters := [] })
      exact this)
    (by simp [RegsKeptButAttn]) (Or.inl (by simp))

theorem setTimer (h : PortStep p s t) (d : Deadline) : PortStep p s (setTimer p d t) := h.modPort _

theorem enterState (h : PortStep p s t) (st : PState) : PortStep p s (enterState p st t) := by
  unfold Machine.enterState
  split
  · exact h
  · exact ((h.modPort _).raise _).post

theorem reached (h : PortStep p s t) : PortStep p s (reached p t) := (h.giveAll _).modPort _

theorem reachIfGoal (h : PortStep p s t) : PortStep p s (reachIfGoal p t) := by
  unfold Machine.reachIfGoal; split
  · exact h.reached
  · exact h

theorem queueUp (h : PortStep p s t) : PortStep p s (queueUp p t) := (h.enterState _).tellGovernor _

theorem enterOff (h : PortStep p s t) : PortStep p s (enterOff p t) := by
  unfold Machine.enterOff
  dsimp only
  split
  · exact ((h.modPort _).enterState _).reached
  · exact ((h.modPort _).enterState _).queueUp

theorem abandonLane (h : PortStep p s t) : PortStep p s (abandonLane p t) := (h.modPort _).emit _

theorem cutRail (h : PortStep p s t) (why : EndReason) : PortStep p s (cutRail p why t) := by
  unfold Machine.cutRail; split
  · exact h.abandonLane.modPort _
  · exact h

theorem giveUpHoldings (h : PortStep p s t) : PortStep p s (giveUpHoldings p t) := by
  unfold Machine.giveUpHoldings; split
  · exact h.tellGovernor _
  · split
    · exact h.tellGovernor _
    · exact h

theorem fault (h : PortStep p s t) (r : FaultReason) : PortStep p s (fault p r t) :=
  (((((h.cutRail _).giveUpHoldings).modPort _).giveAll _).enterState _).raise _

theorem raiseClaim (h : PortStep p s t) : PortStep p s (raiseClaim p t) := h.modPort _

theorem enterReady (h : PortStep p s t) : PortStep p s (enterReady p t) :=
  (h.enterState _).reachIfGoal.raiseClaim

theorem finishTuning (h : PortStep p s t) : PortStep p s (finishTuning p t) := (h.modPort _).enterReady

theorem enterTuning (h : PortStep p s t) : PortStep p s (enterTuning p t) := by
  unfold Machine.enterTuning
  dsimp only
  split
  · exact ((h.enterState _).modPort _).finishTuning
  · exact ((h.enterState _).modPort _).raiseClaim

theorem enterPausing (h : PortStep p s t) : PortStep p s (enterPausing p t) :=
  ((h.enterState _).setTimer _).raiseClaim

theorem enterResuming (h : PortStep p s t) : PortStep p s (enterResuming p t) :=
  ((h.enterState _).setTimer _).raiseClaim

theorem enterStopping (h : PortStep p s t) : PortStep p s (enterStopping p t) := (h.enterState _).setTimer _

theorem enterPaused (h : PortStep p s t) : PortStep p s (enterPaused p t) :=
  (h.enterState _).reachIfGoal.raiseClaim

theorem beginAttempt (h : PortStep p s t) (ph : Phrase) : PortStep p s (beginAttempt p ph t) :=
  (h.modPort _).emit _

theorem grantPoint (h : PortStep p s t) : PortStep p s (grantPoint p t) := by
  unfold Machine.grantPoint
  dsimp only
  repeat' split
  all_goals first
    | with_reducible exact h
    | with_reducible exact h.beginAttempt _
    | with_reducible exact (h.modPort _).beginAttempt _
    | with_reducible exact h.modPort _

theorem noteExchange (h : PortStep p s t) : PortStep p s (noteExchange p t) := h.modPort _

theorem setDone (h : PortStep p s t) : PortStep p s (setDone p t) := by
  unfold Machine.setDone
  dsimp only
  repeat' split
  all_goals first
    | with_reducible exact (h.modPort _).finishTuning
    | with_reducible exact (h.modPort _).raiseClaim
    | with_reducible exact h.finishTuning

theorem applyStep (h : PortStep p s t) (n : PhraseName) (ok : Bool) : PortStep p s (applyStep p n ok t) := by
  unfold Machine.applyStep
  split
  all_goals first
    | with_reducible exact h
    | with_reducible exact h.enterStopping
    | with_reducible exact h.setDone
    | with_reducible exact h.enterPausing
    | with_reducible exact h.enterResuming
    | with_reducible exact h.fault _

theorem keepEnded (h : PortStep p s t) : PortStep p s (keepEnded p t) := by
  unfold Machine.keepEnded; split
  · exact h.enterTuning
  · exact h

theorem endPhrase (h : PortStep p s t) (ph : Phrase) (ok : Bool) : PortStep p s (endPhrase p ph ok t) := by
  unfold Machine.endPhrase
  dsimp only
  have h1 := h.modPort fun x => { x with lane := .free }
  repeat' split
  all_goals first
    | with_reducible exact (h1.noteExchange.keepEnded).grantPoint
    | with_reducible exact (h1.keepEnded).grantPoint
    | with_reducible exact (h1.noteExchange.applyStep _ _).grantPoint
    | with_reducible exact (h1.applyStep _ _).grantPoint

theorem takeHello (h : PortStep p s t) (c f : Byte) : PortStep p s (takeHello p c f t) := by
  unfold Machine.takeHello
  dsimp only
  have h1 := h.modPort fun x => { x with firmware := some f }
  repeat' split
  · exact h1.fault _
  · unfold bootHello; exact ((h1.tellGovernor _).modPort _).enterTuning
  · unfold rebootHello; exact (h1.modPort _).enterTuning
  · exact h1

theorem takeSettled (h : PortStep p s t) : PortStep p s (takeSettled p t) := by
  unfold Machine.takeSettled; split
  · exact h.enterPaused
  · exact h

theorem takeAwake (h : PortStep p s t) : PortStep p s (takeAwake p t) := by
  unfold Machine.takeAwake
  repeat' split
  · exact h.enterTuning
  · exact h.enterReady
  · exact h

theorem takeParting (h : PortStep p s t) : PortStep p s (takeParting p t) := by
  unfold Machine.takeParting partAlive
  dsimp only
  repeat' split
  · exact (((h.cutRail _).drawStamp.modPort _).giveAll _).enterOff
  · exact (h.cutRail _).enterOff
  · exact h

theorem lapse (h : PortStep p s t) : PortStep p s (lapse p t) := by
  unfold Machine.lapse
  dsimp only
  repeat' split
  · exact ((h.modPort _).cutRail _).enterOff
  · exact (((h.modPort _).cutRail _).modPort _).queueUp
  · exact (h.modPort _).fault _

theorem cutToOff (h : PortStep p s t) : PortStep p s (cutToOff p t) := (h.giveUpHoldings.cutRail _).enterOff

theorem insertPlug (h : PortStep p s t) : PortStep p s (insertPlug p t) :=
  ((h.modPort _).enterState _).handJoin _

theorem leaveReader (h : PortStep p s t) : PortStep p s (leaveReader p t) := by
  unfold Machine.leaveReader
  dsimp only
  repeat' split
  all_goals first
    | with_reducible exact h
    | with_reducible exact h.modPort _
    | with_reducible exact (h.modPort _).setReader _
    | with_reducible exact (h.modPort _).tellReader _
    | with_reducible exact ((h.modPort _).setReader _).tellReader _

theorem removePlug (h : PortStep p s t) : PortStep p s (removePlug p t) :=
  ((((h.cutRail _).giveUpHoldings.leaveReader).modPort _).giveAll _).enterState _

theorem identifyAgain (h : PortStep p s t) (ticket : Nat) : PortStep p s (identifyAgain p ticket t) :=
  (h.enterState _).handJoin _

theorem clearPort (h : PortStep p s t) (ticket : Nat) : PortStep p s (clearPort p ticket t).2 := by
  unfold Machine.clearPort
  split
  · exact h.identifyAgain _
  · exact h.identifyAgain _
  · exact h.enterOff
  · exact h

theorem takeIdResult (h : PortStep p s t) (r : IdResult) : PortStep p s (takeIdResult p r t) := by
  unfold Machine.takeIdResult
  repeat' split
  · exact (h.modPort _).enterOff
  · exact h.fault _
  · exact h.fault _
  · exact h

theorem callAgain (h : PortStep p s t) (old : Target) : PortStep p s (callAgain p old t) := by
  unfold Machine.callAgain
  dsimp only
  split
  · exact h.raiseClaim.grantPoint
  · exact h

theorem waitFor (h : PortStep p s t) (awaited : Target) (ms : Nat) :
    PortStep p s (waitFor p awaited ms t) := h.modPort _

theorem actOnTarget (h : PortStep p s t) (old : Target) : PortStep p s (actOnTarget p old t) := by
  unfold Machine.actOnTarget
  dsimp only
  repeat' split
  all_goals first
    | with_reducible exact h
    | with_reducible exact h.queueUp
    | with_reducible exact (h.tellGovernor _).enterOff
    | with_reducible exact ((h.cutRail _).giveUpHoldings).enterOff
    | with_reducible exact h.callAgain _
    | with_reducible exact (h.waitFor _ _).callAgain _

theorem storeTarget (h : PortStep p s t) (g : Target) : PortStep p s (storeTarget p g t) := by
  unfold Machine.storeTarget
  dsimp only
  split
  · exact h.modPort _
  · exact (h.giveAll _).modPort _

theorem carryOut (h : PortStep p s t) (g : TargetSet) (old : Target) : PortStep p s (carryOut p g old t) := by
  unfold Machine.carryOut
  dsimp only
  split
  · exact (h.modPort _).cutToOff.modPort _
  · exact ((h.modPort _).actOnTarget _).modPort _

theorem joinWaiters (h : PortStep p s t) (ref : Option EntryNo) : PortStep p s (joinWaiters p ref t) := by
  unfold Machine.joinWaiters; split
  · exact h
  · exact h.modPort _

/-- An operation at port `p` followed by the posting of its slot. -/
theorem atPort (h : PortStep p s t) {f : State → State} (hf : PortStep p s (f t)) :
    PortStep p s (t.atPort p f) := by
  have _ := h
  unfold State.atPort State.postIfChanged; split
  · exact hf
  · exact hf.post

/-- A target set at port `p` (R11, R12). -/
theorem targetSet (h : PortStep p s t) (g : TargetSet) (ref : Option EntryNo) :
    PortStep p s (targetSet p g ref t).2 := by
  unfold Machine.targetSet
  dsimp only
  split
  · exact h
  · dsimp only
    refine h.atPort ?_
    split
    · exact ((h.drawStamp.storeTarget _).carryOut _ _).joinWaiters _
    · exact (h.drawStamp.storeTarget _).carryOut _ _

theorem takeReplacement (h : PortStep p s t) (l : Profile) : PortStep p s (takeReplacement p l t) := by
  unfold Machine.takeReplacement
  dsimp only
  repeat' split
  all_goals first
    | with_reducible exact h.modPort _
    | with_reducible exact (h.modPort _).modPort _
    | with_reducible exact (((h.modPort _).modPort _).finishTuning).grantPoint
    | with_reducible exact (((h.modPort _).modPort _).raiseClaim).grantPoint
    | with_reducible exact (((h.modPort _).modPort _).enterTuning).grantPoint

end PortStep

end Sys2Proof.Machine
end

