-- ==== Sys2Proof/Laws/Serving.lean ====
section
/-! SUPPORT. What a serving check, an accepted rig offer and the end of a take can do: one frame equation for
each, and what each leaves. -/

set_option Elab.async false

namespace Sys2Proof.Machine

/-! ## Serving (R100, R101) -/

/-- Serving touches the governor and the ports, nothing else. -/
theorem serveUpTo_frame (n : Nat) (s : State) :
    serveUpTo n s = { s with governor := (serveUpTo n s).governor, ports := (serveUpTo n s).ports } := by
  induction n generalizing s with
  | zero => rfl
  | succ n ih =>
    simp only [serveUpTo]
    split
    · rfl
    · split
      · rw [ih]; rfl
      · rfl

theorem servingCheck_frame (s : State) :
    servingCheck s =
      { s with governor := (servingCheck s).governor, ports := (servingCheck s).ports } :=
  serveUpTo_frame _ s

/-- Serving keeps the settings and the governor's state. -/
theorem serveUpTo_settings (n : Nat) (s : State) :
    (serveUpTo n s).governor.settings = s.governor.settings ∧
      (serveUpTo n s).governor.state = s.governor.state := by
  induction n generalizing s with
  | zero => exact ⟨rfl, rfl⟩
  | succ n ih =>
    simp only [serveUpTo]
    split
    · exact ⟨rfl, rfl⟩
    · split
      · exact ih _
      · exact ⟨rfl, rfl⟩

theorem servingCheck_settings (s : State) :
    (servingCheck s).governor.settings = s.governor.settings ∧
      (servingCheck s).governor.state = s.governor.state :=
  serveUpTo_settings _ s

/-- Serving gives a port grants and changes nothing else of it. -/
theorem serveUpTo_port (n : Nat) (s : State) (q : PortNo) :
    ∃ k, (serveUpTo n s).port q =
      { s.port q with fromGovernor := (s.port q).fromGovernor ++ List.replicate k .grant } := by
  induction n generalizing s with
  | zero => exact ⟨0, by simp [serveUpTo]⟩
  | succ n ih =>
    simp only [serveUpTo]
    split
    · exact ⟨0, by simp⟩
    · rename_i p rest _
      split
      · obtain ⟨k, hk⟩ := ih (serveHead p rest s)
        by_cases hq : q = p
        · refine ⟨k + 1, ?_⟩
          subst hq
          rw [hk]
          simp [serveHead, State.tellPort, List.replicate_succ]
        · refine ⟨k, ?_⟩
          rw [hk]
          simp [serveHead, State.tellPort, port_modPort_ne _ _ hq]
      · exact ⟨0, by simp⟩

theorem servingCheck_port (s : State) (q : PortNo) :
    ∃ k, (servingCheck s).port q =
      { s.port q with fromGovernor := (s.port q).fromGovernor ++ List.replicate k .grant } :=
  serveUpTo_port _ s q

/-- With enough turns, serving stops only with no claim left or with a condition of R100 unmet. -/
theorem serveUpTo_done (n : Nat) (s : State) (h : s.governor.queue.length ≤ n) :
    (serveUpTo n s).governor.queue = [] ∨ (serveUpTo n s).governor.canServe = false := by
  induction n generalizing s with
  | zero => left; simpa [serveUpTo] using h
  | succ n ih =>
    simp only [serveUpTo]
    split
    · left; assumption
    · rename_i p rest hq
      split
      · apply ih
        rw [hq] at h
        simpa [serveHead, State.tellPort] using h
      · right; simp_all

theorem servingCheck_done (s : State) :
    (servingCheck s).governor.queue = [] ∨ (servingCheck s).governor.canServe = false :=
  serveUpTo_done _ s (Nat.le_refl _)

/-- The claims left are the tail of the claims there were. -/
theorem serveUpTo_queue (n : Nat) (s : State) :
    ∃ k, (serveUpTo n s).governor.queue = s.governor.queue.drop k := by
  induction n generalizing s with
  | zero => exact ⟨0, rfl⟩
  | succ n ih =>
    simp only [serveUpTo]
    split
    · exact ⟨0, rfl⟩
    · rename_i p rest hq
      split
      · obtain ⟨k, hk⟩ := ih (serveHead p rest s)
        exact ⟨k + 1, by rw [hk, hq]; simp [serveHead, State.tellPort]⟩
      · exact ⟨0, rfl⟩

theorem servingCheck_queue (s : State) :
    ∃ k, (servingCheck s).governor.queue = s.governor.queue.drop k := serveUpTo_queue _ s

/-- A count of true entries rises by at most one when one entry is set. -/
theorem count_set_true (l : List Bool) (i : Nat) : (l.set i true).count true ≤ l.count true + 1 := by
  induction l generalizing i with
  | nil => simp
  | cons b l ih =>
    cases i with
    | zero => cases b <;> simp
    | succ i =>
      have := ih i
      cases b <;> simp <;> omega

/-- Serving keeps the two limits of R98 and R99: slots held within BOOT_CAP, and the History within the grant
limit or as long as it was. -/
theorem serveUpTo_limits (n : Nat) (s : State) (h : s.governor.slotsHeld ≤ s.governor.settings.bootCap) :
    (serveUpTo n s).governor.slotsHeld ≤ s.governor.settings.bootCap ∧
      (serveUpTo n s).governor.history.length ≤
        max s.governor.history.length s.governor.settings.grantLimit := by
  induction n generalizing s with
  | zero => exact ⟨h, Nat.le_max_left _ _⟩
  | succ n ih =>
    simp only [serveUpTo]
    split
    · exact ⟨h, Nat.le_max_left _ _⟩
    · rename_i p rest hq
      split
      · rename_i hc
        simp only [Governor.canServe, Bool.and_eq_true, decide_eq_true_eq] at hc
        have hs : (serveHead p rest s).governor.slotsHeld ≤ s.governor.settings.bootCap := by
          have := count_set_true s.governor.holders.items p.val
          have hh : (serveHead p rest s).governor.slotsHeld =
              (s.governor.holders.items.set p.val true).count true := rfl
          have h2 := hc.1.2
          unfold Governor.slotsHeld at h2
          omega
        have hl : (serveHead p rest s).governor.history.length = s.governor.history.length + 1 := by
          simp [serveHead, State.tellPort]
        have ht : (serveHead p rest s).governor.settings = s.governor.settings := rfl
        have := ih (serveHead p rest s) (by rw [ht]; exact hs)
        rw [ht, hl] at this
        refine ⟨this.1, this.2.trans ?_⟩
        have := hc.2
        omega
      · exact ⟨h, Nat.le_max_left _ _⟩

theorem servingCheck_limits (s : State) (h : s.governor.slotsHeld ≤ s.governor.settings.bootCap) :
    (servingCheck s).governor.slotsHeld ≤ s.governor.settings.bootCap ∧
      (servingCheck s).governor.history.length ≤
        max s.governor.history.length s.governor.settings.grantLimit :=
  serveUpTo_limits _ s h

/-! ## Trip cuts (R106) -/

/-- Handing trip cuts touches the ports alone. -/
theorem handCuts_frame (ps : List PortNo) (s : State) :
    handCuts ps s = { s with ports := (handCuts ps s).ports } := by
  induction ps generalizing s with
  | nil => rfl
  | cons p rest ih =>
    simp only [handCuts]
    rw [ih]
    split <;> rfl

/-! ## The end of a take (R121) -/

/-- A header change, in full. -/
theorem placeHeaderWrite_eq (s : State) :
    s.placeHeaderWrite =
      if headerWriteWaits s.walker.accesses then s else s.place .headerWrite := rfl

/-- What a take that ends in a block write does to the walker: the anchor is the block, the taken count is one
higher, and the block write, a header write and a link read are the last of the list. -/
theorem lookFromAnchor_moveAnchor (c : FetchedCopy) (form : BlockForm) (s : State) :
    lookFromAnchor (moveAnchor c form s) =
      s.setWalker
        { s.walker with
          state := .fetching
          anchor := .block c.address
          takenCount := s.walker.takenCount + 1
          accesses := s.walker.accesses ++
            [.blockWrite
              { address := c.address, form := form, notify := flagNotify c.data, entry := none, ofTake := true },
             .headerWrite, .linkRead] } := by
  have : headerWriteWaits (moveAnchor c form s).walker.accesses = false := by
    simp [headerWriteWaits, moveAnchor, State.place, State.setWalker, Access.isBlockWrite]
  rw [lookFromAnchor, placeHeaderWrite_eq, if_neg (by rw [this]; decide)]
  simp [moveAnchor, State.place, State.setWalker]

/-- A refusal touches the walker alone. -/
theorem refuse_eq (c : FetchedCopy) (r : RefusalReason) (s : State) :
    refuse c r s = s.setWalker (refuse c r s).walker := by
  simp only [refuse, lookFromAnchor_moveAnchor]; rfl

/-- A completion touches the walker alone. -/
theorem complete_eq (c : FetchedCopy) (outs : Table OutcomeCode 16) (s : State) :
    complete c outs s = s.setWalker (complete c outs s).walker := by
  simp only [complete, lookFromAnchor_moveAnchor]; rfl

/-! ## Configuration (R40, R94) -/

/-- An accepted offer touches the governor's settings, the monitor's levels and the pending beat length. -/
theorem acceptOffer_frame (o : RigOffer) (s : State) :
    acceptOffer o s =
      { s with
        governor := { s.governor with settings := (acceptOffer o s).governor.settings }
        monitor := { s.monitor with levelsHanded := s.monitor.levelsHanded ++ o.tripLevel.toList }
        cadence :=
          { s.cadence with
            pendingBeatMs := match o.beatMs with
              | some b => some b
              | none => s.cadence.pendingBeatMs } } := by
  unfold acceptOffer
  cases o.beatMs <;> rfl

/-- Replacements touch the named ports' lists alone. -/
theorem handReplacements_frame (l : Profile) (ps : List PortNo) (s : State) :
    handReplacements l ps s = { s with ports := (handReplacements l ps s).ports } := by
  induction ps generalizing s with
  | nil => rfl
  | cons p rest ih =>
    simp only [handReplacements]
    rw [ih]
    rfl

/-- A replacement is handed once to each port of the list. -/
theorem handReplacements_port (l : Profile) (ps : List PortNo) (s : State) (q : PortNo) :
    (handReplacements l ps s).port q =
      { s.port q with
        replacements := (s.port q).replacements ++ List.replicate (ps.count q) l } := by
  induction ps generalizing s with
  | nil => simp [handReplacements]
  | cons p rest ih =>
    simp only [handReplacements, ih]
    by_cases h : q = p
    · subst h
      simp [List.replicate_succ]
    · have h2 : (p == q) = false := by simpa using fun e => h e.symm
      simp [port_modPort_ne _ _ h, List.count_cons, h2]

end Sys2Proof.Machine
end

