-- ==== Sys2Proof/Laws/Sweeping.lean ====
section
/-! SUPPORT. What the visits of a sweep, the start of a sweep and a run of target sets leave alone. -/

set_option Elab.async false

namespace Sys2Proof.Machine

/-! ## A visit (R159) -/

/-- An answer recorded touches the In-flight Table alone. -/
theorem recordAnswer_frame (o : Origin) (p : PortNo) (a : Answer) (s : State) :
    recordAnswer o p a s = { s with inflight := (recordAnswer o p a s).inflight } := by
  unfold recordAnswer
  split
  · unfold State.recordOutcome; split <;> rfl
  · rfl

/-- A visit leaves the queue, the clock, the lines, the groups, the pool, the bindings and the supply alone. -/
theorem visitMember_rig (x : Sweep) (p : PortNo) (s : State) : RigKept s (visitMember x p s) := by
  unfold visitMember
  split
  · rw [recordAnswer_frame]
    exact ⟨rfl, ⟨rfl, rfl⟩, ⟨rfl, rfl, rfl⟩, rfl, rfl⟩
  · dsimp only
    rw [recordAnswer_frame]
    exact ((PortStep.refl p s).targetSet x.action x.origin.ref).rig

/-- A visit leaves every other port alone. -/
theorem visitMember_others (x : Sweep) (p : PortNo) (s : State) : OtherPortsKept p s (visitMember x p s) := by
  unfold visitMember
  split
  · rw [recordAnswer_frame]
    exact fun _ _ => rfl
  · dsimp only
    rw [recordAnswer_frame]
    exact ((PortStep.refl p s).targetSet x.action x.origin.ref).others

/-! ## Visits (R160, R161) -/

/-- Visits leave the queue, the clock, the lines, the bindings, the supply and every group's definition
alone. -/
structure SweepKept (s t : State) : Prop where
  pending : t.pending = s.pending
  clock : ClockAndLinesKept s t
  bindings : t.bindings = s.bindings
  supply : SupplyKept s t
  defns : ∀ g, (t.group g).defn = (s.group g).defn

theorem SweepKept.refl (s : State) : SweepKept s s := ⟨rfl, ⟨rfl, rfl⟩, rfl, ⟨rfl, rfl⟩, fun _ => rfl⟩

theorem SweepKept.trans {s t u : State} (h : SweepKept s t) (k : SweepKept t u) : SweepKept s u :=
  ⟨k.pending.trans h.pending, ⟨k.clock.1.trans h.clock.1, k.clock.2.trans h.clock.2⟩,
    k.bindings.trans h.bindings, ⟨k.supply.1.trans h.supply.1, k.supply.2.trans h.supply.2⟩,
    fun g => (k.defns g).trans (h.defns g)⟩

theorem SweepKept.of_rig {s t : State} (h : RigKept s t) : SweepKept s t :=
  ⟨h.1, h.2.1, h.2.2.1.2.2, h.2.2.2, fun g => by unfold State.group; rw [h.2.2.1.1]⟩

theorem setSweep_kept (s : State) (r : SweepNo) (x : Option Sweep) : SweepKept s (s.setSweep r x) :=
  ⟨rfl, ⟨rfl, rfl⟩, rfl, ⟨rfl, rfl⟩, fun _ => rfl⟩

/-- A change of a group's active sweep count. -/
theorem setActive_kept (s : State) (g : GroupNo) (n : Nat) :
    SweepKept s (s.setGroup g { s.group g with active := n }) := by
  refine ⟨rfl, ⟨rfl, rfl⟩, rfl, ⟨rfl, rfl⟩, fun h => ?_⟩
  rw [group_setGroup]
  split
  · subst_vars; rfl
  · rfl

theorem freeSweep_kept (r : SweepNo) (x : Sweep) (s : State) : SweepKept s (freeSweep r x s) :=
  (setActive_kept s x.group _).trans (setSweep_kept _ r none)

theorem runVisits_kept (n : Nat) (r : SweepNo) (s : State) : SweepKept s (runVisits n r s).2 := by
  induction n generalizing s with
  | zero => exact .refl s
  | succ n ih =>
    simp only [runVisits]
    split
    · exact .refl s
    · rename_i x _
      have hv : SweepKept s (match (s.members x.group)[x.cursor]? with
          | some p => visitMember x p s
          | none => s) := by
        split
        · exact .of_rig (visitMember_rig _ _ _)
        · exact .refl s
      split
      · exact hv.trans (freeSweep_kept r x _)
      · split
        · exact (hv.trans (setSweep_kept _ r _)).trans (ih _)
        · exact hv.trans (setSweep_kept _ r _)

theorem startSweep_kept (r : SweepNo) (g : GroupNo) (d : GroupDef) (t : TargetSet) (o : Origin) (b : Nat)
    (s : State) : SweepKept s (startSweep r g d t o b s).2 :=
  ((setActive_kept s g _).trans (setSweep_kept _ r _)).trans (runVisits_kept _ r _)

theorem judgeEdge_kept (n : LineNo) (toHigh : Bool) (s : State) : SweepKept s (judgeEdge n toHigh s).2 := by
  unfold judgeEdge
  repeat' split
  all_goals first
    | exact .refl s
    | exact startSweep_kept ..

/-! ## Target sets handed in a take (R139, R140) -/

/-- A run of target sets leaves the queue, the clock, the lines, the groups, the pool, the bindings and the
supply alone, and every port that is not in the list. -/
theorem handTargets_kept (t : TargetSet) (ref : Option EntryNo) (ps : List PortNo) (a : Answers) (s : State) :
    RigKept s (handTargets t ref ps a s).2 ∧
      ∀ q, q ∉ ps → (handTargets t ref ps a s).2.port q = s.port q := by
  induction ps generalizing a s with
  | nil => exact ⟨⟨rfl, ⟨rfl, rfl⟩, ⟨rfl, rfl, rfl⟩, rfl, rfl⟩, fun _ _ => rfl⟩
  | cons p rest ih =>
    simp only [handTargets]
    have hp := (PortStep.refl p s).targetSet t ref
    obtain ⟨h1, h2⟩ := ih (a.record p (targetSet p t ref s).1) (targetSet p t ref s).2
    refine ⟨?_, fun q hq => ?_⟩
    · have h3 := hp.rig
      exact ⟨h1.1.trans h3.1, ⟨h1.2.1.1.trans h3.2.1.1, h1.2.1.2.trans h3.2.1.2⟩,
        ⟨h1.2.2.1.1.trans h3.2.2.1.1, h1.2.2.1.2.1.trans h3.2.2.1.2.1, h1.2.2.1.2.2.trans h3.2.2.1.2.2⟩,
        h1.2.2.2.1.trans h3.2.2.2.1, h1.2.2.2.2.trans h3.2.2.2.2⟩
    · simp only [List.mem_cons, not_or] at hq
      exact (h2 q hq.2).trans (hp.others q hq.1)

end Sys2Proof.Machine
end

