-- ==== Sys2Proof/Laws/Posting.lean ====
section
/-! SUPPORT. What an event posts: one relation that says every port whose published fields have changed has its
slot on the posting list, for each operation that it may follow, and what it gives at the end of the event. -/

set_option Elab.async false

namespace Sys2Proof.Machine

/-- From `s` to `t` the Status Writer has changed by postings alone, none is lost, and the slot of every port whose
published fields differ is posted (R5, R178). -/
structure PortsPosted (s t : State) : Prop where
  changed : ∀ p, portPublished (t.port p) = portPublished (s.port p) ∨ Slot.port p ∈ t.writer.posting
  grows : ∀ x ∈ s.writer.posting, x ∈ t.writer.posting
  writer : t.writer = { s.writer with posting := t.writer.posting }

namespace PortsPosted

variable {s t u : State}

theorem refl (s : State) : PortsPosted s s := ⟨fun _ => Or.inl rfl, fun _ h => h, rfl⟩

theorem trans (h : PortsPosted s t) (k : PortsPosted t u) : PortsPosted s u where
  changed := fun p => by
    rcases k.changed p with h1 | h1
    · rcases h.changed p with h2 | h2
      · exact Or.inl (h1.trans h2)
      · exact Or.inr (k.grows _ h2)
    · exact Or.inr h1
  grows := fun x hx => k.grows x (h.grows x hx)
  writer := k.writer.trans (by rw [h.writer])

/-- An operation that leaves the ports and the writer alone. -/
theorem of_kept (hp : PortsKept s t) (hw : t.writer = s.writer) : PortsPosted s t :=
  ⟨fun p => Or.inl (by rw [port_congr hp]), fun _ hx => by rw [hw]; exact hx, by rw [hw]⟩

/-- An operation that changes no published field of any port and leaves the writer alone. -/
theorem of_published (hp : ∀ p, portPublished (t.port p) = portPublished (s.port p)) (hw : t.writer = s.writer) :
    PortsPosted s t :=
  ⟨fun p => Or.inl (hp p), fun _ hx => by rw [hw]; exact hx, by rw [hw]⟩

/-- An operation at one port that ends with the posting of its slot. -/
theorem atPort {p : PortNo} {f : State → State} (h : PortStep p s (f s)) : PortsPosted s (s.atPort p f) := by
  have k : PortStep p s (s.atPort p f) := (PortStep.refl p s).atPort h
  refine ⟨fun q => ?_, ?_, ?_⟩
  · by_cases hq : q = p
    · subst hq
      unfold State.atPort State.postIfChanged
      split
      · rename_i he; exact Or.inl he
      · refine Or.inr ?_
        by_cases hm : Slot.port q ∈ (f s).writer.posting
        · unfold State.post; rw [if_pos hm]; exact hm
        · unfold State.post; rw [if_neg hm]; simp [State.setWriter]
    · exact Or.inl (by rw [k.others q hq])
  · rcases k.writer with h1 | ⟨_, h1⟩ <;> rw [h1] <;> simp +contextual
  · rcases k.writer with h1 | ⟨_, h1⟩ <;> rw [h1]

/-- The slot of a port whose published fields an event has changed is posted as the event ends (R178). -/
theorem settle (h : PortsPosted s t) {p : PortNo}
    (hne : portPublished ((Machine.settle t).port p) ≠ portPublished (s.port p)) :
    PostedWhileAttached (.port p) s (Machine.settle t) := by
  intro ha _
  have hport : (Machine.settle t).port p = t.port p := port_congr (by simp [Machine.settle]) p
  rw [hport] at hne
  have hmem : Slot.port p ∈ t.writer.posting := (h.changed p).resolve_left hne
  have hw : (Machine.settle t).writer = (beginSlotWrite (silenceWriter (finishDetach t))).writer := by
    simp [Machine.settle]
  have hatt : (finishDetach t).walker.state.attached = true := by
    have hs : (Machine.settle t).walker.state = (finishDetach t).walker.state := by
      unfold Machine.settle beginAccess
      split
      · split <;> simp
      · simp
    rw [← hs]; exact ha
  have hfd : (finishDetach t).writer = t.writer := by simp
  have hsil : silenceWriter (finishDetach t) = finishDetach t := by
    unfold silenceWriter; rw [if_pos hatt]
  unfold SlotPosted
  rw [hw, hsil]
  rcases beginSlotWrite_writer (finishDetach t) with hb | ⟨z, rest, h1, h2, h3, h4, h5⟩
  · exact Or.inl (by rw [hb, hfd]; exact hmem)
  · rw [hfd] at h1 h2 h5
    rw [h1] at hmem
    rcases List.mem_cons.mp hmem with rfl | hr
    · refine Or.inr ⟨by rw [h.writer] at h2; exact h2, h4, ?_⟩
      rw [h5]
      have hser : t.writer.portSerial = s.writer.portSerial := by rw [h.writer]
      simp [Writer.raiseSerial, Writer.serialOf, Table.get_set_self, BitVec.toNat_add, hser]
    · exact Or.inl (by rw [h3]; exact hr)

theorem targetSet (p : PortNo) (g : TargetSet) (ref : Option EntryNo) (s : State) :
    PortsPosted s (targetSet p g ref s).2 := by
  unfold Machine.targetSet
  dsimp only
  split
  · exact refl s
  · dsimp only
    refine atPort ?_
    have h := PortStep.refl p s
    split
    · exact ((h.drawStamp.storeTarget _).carryOut _ _).joinWaiters _
    · exact (h.drawStamp.storeTarget _).carryOut _ _

theorem handTargets (g : TargetSet) (ref : Option EntryNo) (ps : List PortNo) (a : Answers) (s : State) :
    PortsPosted s (handTargets g ref ps a s).2 := by
  induction ps generalizing a s with
  | nil => exact refl s
  | cons p rest ih => exact (targetSet p g ref s).trans (ih _ _)

theorem clearPorts (ticket : Nat) (ps : List PortNo) (o : Table OutcomeCode 16) (s : State) :
    PortsPosted s (clearPorts ticket ps o s).2 := by
  induction ps generalizing o s with
  | nil => exact refl s
  | cons p rest ih => exact (atPort ((PortStep.refl p s).clearPort _)).trans (ih _ _)

theorem recordAnswer (o : Origin) (p : PortNo) (a : Answer) (s : State) :
    PortsPosted s (recordAnswer o p a s) := by
  unfold Machine.recordAnswer
  split
  · exact of_kept (by simp [PortsKept]) (by simp)
  · exact refl s

theorem visitMember (x : Sweep) (p : PortNo) (s : State) : PortsPosted s (visitMember x p s) := by
  unfold Machine.visitMember
  dsimp only
  split
  · exact recordAnswer _ _ _ _
  · exact (targetSet _ _ _ _).trans (recordAnswer _ _ _ _)

theorem setSweep (s : State) (r : SweepNo) (x : Option Sweep) : PortsPosted s (s.setSweep r x) := of_kept rfl rfl

theorem freeSweep (r : SweepNo) (x : Sweep) (s : State) : PortsPosted s (freeSweep r x s) := of_kept rfl rfl

theorem runVisits (n : Nat) (r : SweepNo) (s : State) : PortsPosted s (runVisits n r s).2 := by
  induction n generalizing s with
  | zero => exact refl s
  | succ n ih =>
    simp only [Machine.runVisits]
    split
    · exact refl s
    · rename_i x _
      have hv : PortsPosted s
          (match (s.members x.group)[x.cursor]? with
            | some p => Machine.visitMember x p s
            | none => s) := by
        split
        · exact visitMember _ _ _
        · exact refl s
      split
      · exact hv.trans (freeSweep r x _)
      · split
        · exact (hv.trans (setSweep _ r _)).trans (ih _)
        · exact hv.trans (setSweep _ r _)

theorem startSweep (r : SweepNo) (g : GroupNo) (d : GroupDef) (t : TargetSet) (o : Origin) (b : Nat) (s : State) :
    PortsPosted s (startSweep r g d t o b s).2 := by
  unfold Machine.startSweep
  dsimp only
  refine .trans ?_ (runVisits _ r _)
  exact of_kept rfl rfl

theorem judgeEdge (n : LineNo) (toHigh : Bool) (s : State) : PortsPosted s (judgeEdge n toHigh s).2 := by
  unfold Machine.judgeEdge
  repeat' split
  all_goals first
    | exact refl s
    | exact startSweep ..

theorem finishEntry (e : EntryNo) (s : State) : PortsPosted s (s.finishEntry e) :=
  of_kept (by simp [PortsKept]) (by simp)

theorem refuse (c : FetchedCopy) (r : RefusalReason) (s : State) : PortsPosted s (refuse c r s) :=
  of_kept (by rw [refuse_eq]; rfl) (by rw [refuse_eq]; rfl)

theorem complete (c : FetchedCopy) (outs : Table OutcomeCode 16) (s : State) : PortsPosted s (complete c outs s) :=
  of_kept (by rw [complete_eq]; rfl) (by rw [complete_eq]; rfl)

theorem lookFromAnchor (c : FetchedCopy) (form : BlockForm) (s : State) :
    PortsPosted s (Machine.lookFromAnchor (moveAnchor c form s)) := by
  rw [lookFromAnchor_moveAnchor]; exact of_kept rfl rfl

theorem takeUnstaggered (c : FetchedCopy) (g : TargetSet) (ps : List PortNo) (s : State) :
    PortsPosted s (takeUnstaggered c g ps s) := by
  unfold Machine.takeUnstaggered
  dsimp only
  repeat' split
  · exact of_kept rfl rfl
  · rename_i e _
    refine (handTargets g (some e) ps .empty s).trans (.trans ?_ (lookFromAnchor c _ _))
    exact of_kept rfl rfl
  · exact (handTargets _ _ _ _ s).trans (complete c _ _)

theorem takeStaggered (c : FetchedCopy) (g : GroupNo) (d : GroupDef) (ts : TargetSet) (n : Nat) (s : State) :
    PortsPosted s (takeStaggered c g d ts n s) := by
  unfold Machine.takeStaggered
  dsimp only
  split
  · rename_i e r _ _
    generalize hs : s.setEntry e _ = u
    have hu : PortsPosted s u := by rw [← hs]; exact of_kept rfl rfl
    refine (hu.trans (startSweep r g d ts (.request e) n u)).trans (of_kept ?_ ?_)
    · simp [PortsKept, Machine.lookFromAnchor, moveAnchor]
    · simp [Machine.lookFromAnchor, moveAnchor]
  · exact of_kept rfl rfl

theorem storeProfile (c : FetchedCopy) (list : Profile) (s : State) : PortsPosted s (storeProfile c list s) := by
  unfold Machine.storeProfile
  refine .trans (of_published (fun p => ?_) ?_) (complete c _ _)
  · rw [handReplacements_port]; rfl
  · rw [handReplacements_frame]

theorem takePortTarget (k : Kind) (c : FetchedCopy) (s : State) : PortsPosted s (takePortTarget k c s) := by
  unfold Machine.takePortTarget
  dsimp only
  repeat' split
  · exact refuse c _ s
  · exact takeUnstaggered c _ _ s
  · exact takeStaggered c _ _ _ _ s
  · exact takeUnstaggered c _ _ s

theorem takeSetProfile (c : FetchedCopy) (s : State) : PortsPosted s (takeSetProfile c s) := by
  unfold Machine.takeSetProfile
  dsimp only
  repeat' split
  · exact refuse c _ s
  · exact storeProfile c _ s
  · exact refuse c _ s
  · exact of_kept rfl rfl

theorem takeSetGroup (c : FetchedCopy) (s : State) : PortsPosted s (takeSetGroup c s) := by
  unfold Machine.takeSetGroup
  dsimp only
  repeat' split
  · exact refuse c _ s
  · exact refuse c _ s
  · refine .trans ?_ (complete c _ _)
    exact of_kept rfl rfl

theorem takeBindInput (c : FetchedCopy) (s : State) : PortsPosted s (takeBindInput c s) := by
  unfold Machine.takeBindInput
  repeat' split
  · exact refuse c _ s
  · exact refuse c _ s
  · refine .trans ?_ (complete c _ _)
    exact of_kept rfl rfl
  · exact refuse c _ s
  · refine .trans ?_ (complete c _ _)
    exact of_kept rfl rfl

theorem takeSetRig (c : FetchedCopy) (s : State) : PortsPosted s (takeSetRig c s) := by
  unfold Machine.takeSetRig
  dsimp only
  repeat' split
  · exact refuse c _ s
  · exact refuse c _ s
  · refine .trans (of_kept ?_ ?_) (complete c _ _) <;> rw [acceptOffer_frame]
    rfl

theorem takeKind (k : Kind) (c : FetchedCopy) (s : State) : PortsPosted s (takeKind k c s) := by
  cases k
  · exact takePortTarget _ c s
  · exact takePortTarget _ c s
  · exact takePortTarget _ c s
  · exact takePortTarget _ c s
  · exact (clearPorts _ _ _ s).trans (complete c _ _)
  · exact takeSetProfile c s
  · exact takeSetGroup c s
  · exact takeBindInput c s
  · exact takeSetRig c s

/-- A take posts the slot of every port it changes (R137, R147). -/
theorem takeCopy (c : FetchedCopy) (s : State) : PortsPosted s (takeCopy c s) := by
  unfold Machine.takeCopy
  repeat' split
  · exact refuse c _ s
  · exact refuse c _ s
  · exact refuse c _ s
  · exact takeKind _ c s

/-- A stalled walker's renewed take posts the slot of every port it changes (R122). -/
theorem retake (s : State) : PortsPosted s (retake s) := by
  unfold Machine.retake
  split
  · exact PortsPosted.takeCopy _ s
  · exact refl s

end PortsPosted

end Sys2Proof.Machine
end

