-- ==== Sys2Proof/Tests/Slice0.lean ====
section
/-! SUPPORT. Tests: what WellFormed refuses, the spec's worked examples, and for every statement with
hypotheses a state and operands that meet them. -/

set_option Elab.async false

namespace Sys2Proof.Tests

open Sys2Proof.Machine

/-! ## Small states -/

/-- Sixty-four bytes, zero but at the offsets listed. -/
def block (l : List (Nat × Byte)) : Table Byte 64 :=
  ⟨(List.range 64).map fun k => (l.lookup k).getD 0, by simp⟩

/-- A class record: settle 20 ms, boot limit 300 ms, period 2, lapse limit 2, resume limit 30 ms. -/
def cls : ClassRecord :=
  { classCode := 7, railSettle := 2, bootLimit := 3, keepalivePeriod := 2, lapseLimit := 2
    resumeLimit := 3 }

/-- A port with a camera, in a state, with a target and a lane. -/
def cam (st : PState) (tg : Target) (lane : Lane) : Port :=
  { Port.reset with
    plugged := true, plugLevel := true, plugDebounce := none, classRecord := some cls, state := st
    target := tg, lane := lane }

/-- The reset state with one port replaced. -/
def on (p : PortNo) (x : Port) : State := State.reset.modPort p fun _ => x

/-- The walker of the reset state, attached and in a state, with an access in progress and a list. -/
def walker (st : WalkerState) (now : Option Access) (rest : List Access) : Walker :=
  { State.reset.walker with
    state := st, anchor := .header, board := some { header := 0x1000, statusPage := 0x2000 }
    current := now.map fun a => { access := a, read := none, parts := [], atHalt := false }
    accesses := rest }

/-- The walker of a state replaced. -/
def chain (w : Walker) (s : State) : State := s.setWalker w

/-- A bus read in progress. -/
def reads (a : Access) : BusAccess := { access := a, read := none, parts := [], atHalt := false }

/-- A block being read in FETCHING. -/
def fetching (s : State) : State := chain (walker .fetching (some (.blockRead 0x400)) []) s

/-- A POSTED block of a kind with fields. -/
def posted (kind : Byte) (l : List (Nat × Byte)) : Table Byte 64 := block ((8, 1) :: (9, kind) :: l)

/-- A phrase at its check symbol. -/
def atCheck (n : PhraseName) (payload : List Byte) : Phrase :=
  { newPhrase n payload with next := payload.length + 1 }

/-- A reception of these symbols with their check symbol. -/
def heard (l : List Byte) : RxBuffer :=
  { stored := l ++ [checkSymbol l], count := l.length + 1, damaged := false }

/-- The profile entry of Table 3-4: slot 5, value 1200. -/
def entry5 : ProfileEntry := { slot := 5, value := 0x04B0 }

/-- The state after a command, the state itself where there is none. -/
def after (c : Instr) (s : State) : State :=
  match exec c s with
  | .next t => t
  | _ => s

/-- The outcome is this next state. -/
def nextIs (o : Host.Outcome State Fault Refusal) (t : State) : Bool :=
  match o with
  | .next x => decide (x = t)
  | _ => false

/-- A group of ports 3, 9, 14, 1 led by 14 (the example of R156). -/
def groupDef : GroupDef := { members := [3, 9, 14, 1], lead := 2 }

/-- Group 0 defined, with a number of active sweeps. -/
def grouped (n : Nat) (s : State) : State := s.setGroup 0 { defn := some groupDef, active := n }

/-- An In-flight entry that waits for one port. -/
def waitingFor (p : PortNo) : Entry :=
  { block := 0x400, notify := true, pending := (Table.replicate 16 false).set p true
    outcomes := Table.replicate 16 .none, status := .opened }

/-! ## WellFormed -/

theorem test_nudge_size : WellFormed (.nudge .byte 0x100) = false ∧ WellFormed (.nudge .byte 0xFF) = true := by
  decide

theorem test_register_write_size : WellFormed (.registerWrite 0x08 .half 0x10000) = false := by decide

theorem test_register_write_offset :
    WellFormed (.registerWrite 0x06 .word 0) = false ∧ WellFormed (.registerWrite 0x09 .half 0) = false ∧
      WellFormed (.registerWrite 0x06 .half 0) = true ∧ WellFormed (.registerWrite 0x1F .byte 0) = true := by
  decide

theorem test_list_size :
    WellFormed (.profileListReadComplete []) = false ∧
      WellFormed (.profileListReadComplete [1, 2, 3]) = false ∧
      WellFormed (.profileListReadComplete (List.replicate 52 0)) = false ∧
      WellFormed (.profileListReadComplete (List.replicate 48 0)) = true := by decide

/-! ## The spec's own numbers -/

/-- Table 3-4: the symbols of a SET of slot 5 with value 1200, and their parity bits. -/
theorem test_set_symbols :
    (newPhrase .set entry5.payload).symbols = [0x20, 0x05, 0x04, 0xB0, 0x91] ∧
      [0x20, 0x05, 0x04, 0xB0, 0x91].map parityBit = [false, true, false, false, false] := by decide

/-- R46: the symbol 0xB0 on a lane, most significant bit first, and read back; its three ones need a parity bit
of 0. -/
theorem test_symbol_bits :
    (laneBits 0xB0).items = [true, false, true, true, false, false, false, false] ∧
      laneData (laneBits 0xB0) = 0xB0 ∧ parityGood (laneBits 0xB0) false = true ∧
      parityGood (laneBits 0xB0) true = false := by decide

/-- Table 2-2: the beats 1 to 8 that are keepalive boundaries of ports 0 to 3 with period 4. -/
theorem test_keepalive_stagger :
    ([0, 1, 2, 3] : List PortNo).map (fun p =>
        ((List.range 9).drop 1).filter fun b => isKeepalive p (BitVec.ofNat 32 b) 4) =
      [[4, 8], [3, 7], [2, 6], [1, 5]] := by decide

theorem test_visiting_order : groupDef.visitingOrder = [14, 1, 3, 9] := by decide

/-- R10 at the ends of its range: a difference of 1 and of 2^31 − 1 is newer, one of 0 and of 2^31 is not. -/
theorem test_stamp_range :
    stampNewer 1 0 = true ∧ stampNewer 0x7FFFFFFF 0 = true ∧ stampNewer 0 0 = false ∧
      stampNewer 0x80000000 0 = false ∧ stampNewer 0 0x80000000 = false ∧ stampNewer 0 0xFFFFFFFF = true := by
  decide

/-- The record of section 4.7, and records that fail one test of Table 4-3 each. -/
theorem test_identity_records :
    (validateRecord ⟨[0xA6, 0x0C, 0x05, 0x14, 0x04, 0x03, 0x0A, 0xDC], rfl⟩).isSome = true ∧
      validateRecord ⟨[0xA6, 0x0C, 0x05, 0x14, 0x04, 0x03, 0x0A, 0xDD], rfl⟩ = none ∧
      validateRecord ⟨[0xA6, 255, 2, 3, 2, 2, 3, 0xB1], rfl⟩ = none ∧
      validateRecord ⟨[0xA6, 7, 2, 3, 2, 9, 3, 0xC0], rfl⟩ = none := by decide

theorem test_signature_bytes :
    headerGood (block [(0, 0x42), (1, 0x54), (2, 0x5A), (3, 0x4E), (4, 1), (16, 0x40)]) = true ∧
      headerGood (block [(0, 0x42), (1, 0x54), (2, 0x5A), (3, 0x4E), (4, 1), (16, 0x20)]) = false := by
  decide

theorem test_control_after_power_on : readRegister .control State.reset = 0x100 := by decide

/-! ## Steps, resets and time -/

theorem test_queue : (State.reset.withPending [.tick]).pending = .tick :: [] ∧ State.reset.pending = [] := by
  decide

theorem test_link_reset_premise : (grouped 0 State.reset).poolSound = true := by decide +kernel

/-- The reset state with the tick phase at BEAT_MS and one boundary at the walker. -/
def onBeat : State :=
  { chain { walker .watching none [] with boundaries := 1 } State.reset with
    cadence := { State.reset.cadence with tickPhase := 100 } }

theorem test_tick_premises :
    (State.reset.settled = true ∧ State.reset.rigSound = true ∧
        State.reset.cadence.tickPhase < State.reset.cadence.beatMs) ∧
      (onBeat.settled = true ∧ onBeat.rigSound = true ∧
        onBeat.cadence.beatMs ≤ onBeat.cadence.tickPhase ∧ 0 < onBeat.walker.boundaries) := by
  decide +kernel

/-- An alive port that takes beat 5 with a count of silence. -/
def beating (silence : Nat) : Port := { cam .ready .awake .free with boundaries := [5], silence := silence }

theorem test_keepalive_premises :
    ((on 2 (beating 0)).settled = true ∧ (5 + (2 : PortNo).val) % 2 ≠ 0) ∧
      ((on 3 (beating 1)).settled = true ∧ (5 + (3 : PortNo).val) % 2 = 0 ∧
        ((on 3 (beating 1)).port 3).state.isAlive = true ∧
        ((on 3 (beating 1)).port 3).silence < cls.lapseLimit.toNat) ∧
      ((on 3 (beating 2)).settled = true ∧ cls.lapseLimit.toNat ≤ ((on 3 (beating 2)).port 3).silence ∧
        ((on 3 (beating 2)).port 3).boundaries = 5 :: [] ∧
        ((on 3 (beating 2)).port 3).classRecord = some cls) := by decide +kernel

/-- A port without a camera that a boundary has reached. -/
theorem test_keepalive_of_no_camera :
    (on 3 { Port.reset with boundaries := [5] }).settled = true ∧
      ((on 3 { Port.reset with boundaries := [5] }).port 3).state.isAlive = false ∧
      ((on 3 { Port.reset with boundaries := [5] }).port 3).classRecord = none ∧
      ((after (.keepaliveBoundary 3) (on 3 { Port.reset with boundaries := [5] })).port 3).boundaries = [] := by
  decide +kernel

/-- A sweep of group 0, led on from place 2, with beats to wait and members left. -/
def sweep (beats left : Nat) (origin : Origin) : Sweep :=
  { group := 0, action := { target := .awake, resume := false, cut := false }, origin := origin
    startStamp := 0, cursor := 2, remaining := left, stagger := 3, beatsUntil := beats, stepsOwed := 1 }

/-- A state in which that sweep runs; with a request as origin, entry 0 waits for port 14. -/
def sweeping (x : Sweep) : State :=
  match x.origin with
  | .line _ => (grouped 1 State.reset).setSweep 1 (some x)
  | .request e => ((grouped 1 State.reset).setSweep 1 (some x)).setEntry e (some (waitingFor 14))

theorem test_sweep_premises :
    ((sweeping (sweep 2 4 (.line 0))).settled = true ∧
        (sweeping (sweep 2 4 (.line 0))).sweep 1 = some (sweep 2 4 (.line 0)) ∧ 1 < (sweep 2 4 (.line 0)).beatsUntil) ∧
      ((sweeping (sweep 1 4 (.line 0))).walker.state ≠ .stalled ∧
        (sweep 1 4 (.line 0)).beatsUntil = 1 ∧ ((sweeping (sweep 1 4 (.line 0))).group 0).defn = some groupDef ∧
        groupDef.members[2]? = some 14) ∧
      ((sweeping (sweep 1 1 (.request 0))).requestsSound = true ∧ (sweep 1 1 (.request 0)).remaining = 1) ∧
      groupDef.lead < groupDef.members.length := by decide +kernel

/-- That sweep beside a STALLED walker that holds a copy. -/
def sweepingStalled : State :=
  chain { walker .stalled none [] with copy := some { address := 0x440, data := posted 1 [(16, 8)] } }
    (sweeping (sweep 1 1 (.line 0)))

theorem test_stalled_sweep_premises :
    sweepingStalled.walker.state = .stalled ∧
      sweepingStalled.walker.copy = some { address := 0x440, data := posted 1 [(16, 8)] } ∧
      sweepingStalled.sweep 1 = some (sweep 1 1 (.line 0)) ∧
      (sweepingStalled.group 0).defn = some groupDef ∧ (1 : Nat) < (sweep 1 4 (.line 0)).remaining := by
  decide +kernel

/-- R161, R122: the end of the sweep lets the held copy be taken. -/
theorem test_stalled_sweep :
    (after (.sweepStep 1) sweepingStalled).walker.state = .fetching ∧
      (after (.sweepStep 1) sweepingStalled).walker.anchor = .block 0x440 := by decide +kernel

/-! ## Ports -/

/-- A port whose state timer and wake pulse have expired. -/
def expired (st : PState) (tg : Target) (boots : Nat) : Port :=
  { cam st tg (if st.laneOpen then .free else .closed) with
    timer := some 0, wakePulse := some 0, bootAttempts := boots }

theorem test_timer_premises :
    ((on 3 (expired .powering .awake 0)).settled = true ∧
        ((on 3 (expired .powering .awake 0)).port 3).timer = some 0 ∧
        ((on 3 (expired .powering .awake 0)).port 3).wakePulse = some 0 ∧
        ((on 3 (expired .powering .awake 0)).port 3).classRecord = some cls) ∧
      ((on 3 (expired .booting .awake 1)).settled = true ∧ ((on 3 (expired .booting .awake 1)).port 3).bootAttempts < 2) ∧
      ((on 3 (expired .booting .awake 2)).settled = true ∧ ¬((on 3 (expired .booting .awake 2)).port 3).bootAttempts < 2) ∧
      ((on 3 (expired .pausing .paused 0)).settled = true ∧ ((on 3 (expired .pausing .paused 0)).port 3).timer = some 0) ∧
      ((on 3 (expired .resuming .awake 0)).settled = true ∧ ((on 3 (expired .resuming .awake 0)).port 3).timer = some 0) ∧
      ((on 3 (expired .stopping .off 0)).settled = true ∧ ((on 3 (expired .stopping .off 0)).port 3).target = .off) ∧
      ((on 3 (expired .stopping .awake 0)).settled = true ∧ ((on 3 (expired .stopping .awake 0)).port 3).target ≠ .off) := by
  decide +kernel

theorem test_settle_expiry :
    ((after (.settleExpiry 3) (on 3 (expired .powering .awake 0))).port 3).state = .booting ∧
      ((after (.settleExpiry 3) (on 3 (expired .powering .awake 0))).port 3).timer = some 300 ∧
      ((after (.bootLimitExpiry 3) (on 3 (expired .booting .awake 2))).port 3).state = .faulted .boot ∧
      ((after (.bootLimitExpiry 3) (on 3 (expired .booting .awake 1))).port 3).toGovernor = [.release, .claim] := by
  decide +kernel

/-! ## Lanes -/

theorem test_part_phrase_premises :
    (checkSymbol [0x20, 5, 4, 0xB0] = 0x91 ∧ (cam .tuning .awake .free).profile[0]? = none ∧
        [entry5][0]? = some entry5) ∧
      ((on 3 (cam .tuning .awake (.sending { newPhrase .set [5, 4, 0xB0] with attempt := 2 } 0))).settled = true ∧
        (2 : Nat) < 3) ∧
      ((on 3 (cam .paused .off (.sending { newPhrase .halt [] with attempt := 3 } 0))).settled = true ∧
        PState.paused.isAlive = true) ∧
      ((on 3 { cam .ready .awake (.sending { newPhrase .keep [] with attempt := 3 } 0) with keepDue := true }).settled = true) ∧
      ((on 3 (cam .tuning .awake (.gap (newPhrase .set [5, 4, 0xB0]) 0))).settled = true) ∧
      ((newPhrase .set [5, 4, 0xB0]).next + 1 < (newPhrase .set [5, 4, 0xB0]).symbols.length) := by
  decide +kernel

/-- A READY port with a stale profile whose KEEP fails for the last time. -/
def keepFails (profile : Profile) (tg : Target) : State :=
  on 3
    { cam .ready tg (.sending { newPhrase .keep [] with attempt := 3 } 0) with
      keepDue := true, stale := true, profile := profile }

theorem test_keep_fails_premises :
    (keepFails [entry5] .awake).settled = true ∧ (keepFails [] .paused).settled = true ∧
      ((keepFails [] .paused).port 3).state = .ready ∧ ((keepFails [] .paused).port 3).stale = true ∧
      3 ≤ ({ newPhrase .keep [] with attempt := 3 } : Phrase).attempt := by decide +kernel

/-- R86, R64: the port tunes, and a new KEEP goes first. -/
theorem test_keep_fails :
    ((after (.ackWaitExpiry 3) (keepFails [entry5] .awake)).port 3).state = .tuning ∧
      ((after (.ackWaitExpiry 3) (keepFails [entry5] .awake)).port 3).lane =
        .sending (newPhrase .keep []) 2 := by decide +kernel

theorem test_phrase_end_premises :
    ((on 3 (cam .paused .paused (.sending (atCheck .keep []) 1))).settled = true ∧
        (atCheck .keep []).next + 1 = (atCheck .keep []).symbols.length) ∧
      ((on 3 { cam .ready .awake (.sending (atCheck .keep []) 1) with stale := true, profile := [entry5] }).settled = true) ∧
      ((on 3 { cam .ready .awake (.sending (atCheck .keep []) 1) with stale := true }).settled = true) ∧
      ((on 3 (cam .ready .paused (.sending (atCheck .hold []) 1))).settled = true ∧
        (atCheck .hold []).next + 1 = (atCheck .hold []).symbols.length) ∧
      ((on 3 (cam .paused .awake (.sending (atCheck .release []) 1))).settled = true) ∧
      ((on 3 (cam .tuning .off (.sending (atCheck .halt []) 1))).settled = true) ∧
      ((on 3 { cam .tuning .awake (.sending (atCheck .set entry5.payload) 1) with profile := [entry5, entry5] }).settled = true ∧
        [entry5, entry5][0 + 1]? = some entry5 ∧
        (atCheck .set entry5.payload).next + 1 = (atCheck .set entry5.payload).symbols.length) ∧
      ((on 3 { cam .tuning .awake (.sending (atCheck .set entry5.payload) 1) with
          profile := [entry5], restart := true }).settled = true) ∧
      ([entry5].length ≤ 0 + 1) := by decide +kernel

/-- R83: after the last entry the port is READY and tuned, with target AWAKE reached. -/
theorem test_last_set :
    ((after (.partPhraseEndOk 3) (on 3 { cam .tuning .awake (.sending (atCheck .set entry5.payload) 1) with
        profile := [entry5], stale := true, recovery := 1 })).port 3) =
      { cam .ready .awake .free with profile := [entry5] } := by decide +kernel

theorem test_reception_premises :
    ((on 3 (cam .ready .awake .free)).settled = true ∧ ((on 3 (cam .ready .awake .free)).port 3).lane = .free) ∧
      ((on 3 (cam .ready .awake .closed)).port 3).lane ≠ .free ∧
      ((on 3 (cam .ready .awake (.receiving (heard [1, 2, 3, 4])))).settled = true ∧ (heard [1, 2, 3, 4]).count < 6 ∧
        judgePhrase (heard [1, 2, 3, 4]) = none ∧ (heard [1, 2, 3, 4]).damaged = false ∧
        (ones 7 + if false then 1 else 0) % 2 = 1 ∧ ∀ k : Fin 8, (laneBits 7).get k = (7 : Byte).getMsbD k) ∧
      (6 ≤ (heard [1, 2, 3, 4, 5]).count ∧ (on 3 (cam .ready .awake (.receiving (heard [1, 2, 3, 4, 5])))).settled = true) := by
  decide +kernel

/-- A port in a state that has received a phrase. -/
def hears (st : PState) (tg : Target) (l : List Byte) : State :=
  on 3
    { cam st tg (.receiving (heard l)) with
      timer := if st.alwaysTimed then some 9 else none
      endReason := .stopped }

theorem test_hello_premises :
    ((hears .booting .awake [0x80, 7, 1]).settled = true ∧ (hears .booting .awake [0x80, 7, 1]).portsSound = true ∧
        judgePhrase (heard [0x80, 7, 1]) = some (.hello 7 1) ∧ (heard [0x80, 7, 1]).count < 6) ∧
      ((hears .paused .paused [0x80, 8, 1]).portsSound = true ∧ judgePhrase (heard [0x80, 8, 1]) = some (.hello 8 1) ∧
        (8 : Byte) ≠ cls.classCode) ∧
      ((hears .stopping .off [0x80, 7, 1]).portsSound = true ∧ (hears .stopping .off [0x80, 7, 1]).settled = true) := by
  decide +kernel

theorem test_settled_awake_parting_premises :
    (judgePhrase (heard [0x90]) = some .settled ∧ judgePhrase (heard [0x91]) = some .awake ∧
        judgePhrase (heard [0x9F]) = some .parting ∧ (heard [0x9F]).count < 6) ∧
      ((hears .pausing .paused [0x90]).settled = true ∧ (hears .ready .awake [0x90]).settled = true) ∧
      ((hears .resuming .awake [0x91]).settled = true ∧ (hears .paused .awake [0x91]).settled = true) ∧
      ((hears .booting .awake [0x90]).settled = true ∧ ((hears .booting .awake [0x90]).port 3).keepDue = false ∧
        ((hears .booting .awake [0x90]).port 3).stepClaim = false ∧
        (hears .stopping .off [0x91]).settled = true) ∧
      ((hears .ready .awake [0x9F]).settled = true ∧ (hears .stopping .off [0x9F]).settled = true ∧
        (hears .stopping .awake [0x9F]).settled = true ∧ (hears .booting .awake [0x9F]).settled = true) := by
  decide +kernel

/-- R30: an alive port that parts draws a stamp and enters OFF. -/
theorem test_parting :
    ((after (.parting 3) (hears .ready .awake [0x9F])).port 3).state = .off ∧
      ((after (.parting 3) (hears .ready .awake [0x9F])).port 3).stamp = 1 ∧
      ((after (.parting 3) (hears .ready .awake [0x9F])).port 3).endReason = .parted := by decide +kernel

/-! ## Plugs and the reader -/

/-- A port whose plug debounce has expired. -/
def debounced (x : Port) (seated : Bool) : State := on 3 { x with plugLevel := seated, plugDebounce := some 0 }

theorem test_plug_premises :
    (true ≠ ((debounced Port.reset false).port 3).plugLevel ∧ (debounced Port.reset false).settled = true) ∧
      ((debounced Port.reset true).settled = true ∧ ((debounced Port.reset true).port 3).plugged = false ∧
        ((debounced Port.reset true).port 3).state = .empty ∧
        ∀ q, ((debounced Port.reset true).port q).insertWait ≤ 0) ∧
      ((debounced (cam .off .off .closed) true).port 3).plugLevel = ((debounced (cam .off .off .closed) true).port 3).plugged ∧
      ((debounced (cam .booting .awake .free) false).settled = true ∧
        ((debounced (cam .booting .awake .free) false).port 3).plugDebounce = some 0 ∧
        ((debounced (cam .booting .awake .free) false).port 3).plugged = true ∧
        ((debounced (cam .booting .awake .free) false).port 3).state ≠ .empty) := by decide +kernel

/-- The reader with a queue, in a state. -/
def reader (q : List PortNo) (st : ReaderState) (s : State) : State := s.setReader { queue := q, state := st }

/-- The read of port 3 at a try. -/
def readOf3 (n : Nat) : ReadInProgress := { port := 3, tryNo := n, bytes := [] }

theorem test_reader_premises :
    ((on 3 { Port.reset with toReader := [.join] }).settled = true ∧
        ((on 3 { Port.reset with toReader := [.join] }).port 3).toReader = .join :: [] ∧
        (on 3 { Port.reset with toReader := [.join] }).reader.state = .idle ∧
        (on 3 { Port.reset with toReader := [.join] }).reader.queue = []) ∧
      (∀ q, (.join ∈ ((on 3 { Port.reset with toReader := [.join] }).port q).toReader →
          0 ≤ ((on 3 { Port.reset with toReader := [.join] }).port q).joinTicket)) ∧
      ((reader [3, 4] (.reading (readOf3 1)) (on 3 { Port.reset with toReader := [.withdrawal] })).settled = true ∧
        (readOf3 1).port = 3) ∧
      ((reader [3] (.retryWait (readOf3 1) 0) State.reset).settled = true ∧
        (reader [3] (.retryWait (readOf3 1) 0) State.reset).reader.state = .retryWait (readOf3 1) 0) := by
  decide +kernel

/-- Ports 3 and 5 with an expired plug debounce and a cable newly seated, port 5 for two ticks and port 3 for `n`. -/
def twoDue (n : Nat) : State :=
  (debounced { Port.reset with insertWait := n } true).modPort 5 fun x =>
    { x with plugLevel := true, plugDebounce := some 0, insertWait := 2 }

/-- R69: an insertion waits for one whose debounce expired in an earlier tick; of one tick either is taken. -/
theorem test_insertions_keep_the_order_of_expiry :
    (twoDue 1).settled = true ∧ ((after (.plugDebounceExpiry 3) (twoDue 1)).port 3).state = .empty ∧
      ((after (.plugDebounceExpiry 3) (twoDue 2)).port 3).state = .identifying ∧
      ((after (.plugDebounceExpiry 5) (twoDue 2)).port 5).state = .identifying ∧
      ((after .tick (twoDue 1)).port 3).insertWait = 2 ∧ ((after .tick (twoDue 1)).port 5).insertWait = 3 := by
  decide +kernel

/-- Two expiries of one tick, taken at port 5 and then at port 3. -/
def bothTaken : State := after (.plugDebounceExpiry 3) (after (.plugDebounceExpiry 5) (twoDue 2))

/-- R78: the ports join in the order in which their expiries were taken. -/
theorem test_joins_keep_the_order_of_taking :
    bothTaken.settled = true ∧ (after (.readerJoin 3) bothTaken).reader.queue = [] ∧
      (after (.readerJoin 3) (after (.readerJoin 5) bothTaken)).reader.queue = [5, 3] := by
  decide +kernel

/-- R71: the record of section 4.7 as its bits cross the bus, and the two bytes the part sends. -/
theorem test_bytes_on_the_identity_bus :
    laneData ⟨[true, false, true, false, false, true, true, false], rfl⟩ = 0xA6 ∧
      identityDevice = ⟨[true, false, true, false, false, true, false], rfl⟩ ∧
      identityOffset = ⟨List.replicate 8 false, rfl⟩ ∧
      ((after (.tryEnd (.record ((⟨[0xA6, 0x0C, 0x05, 0x14, 0x04, 0x03, 0x0A, 0xDC], rfl⟩ : Table Byte 8).map laneBits)))
        (reader [3] (.reading (readOf3 1)) State.reset)).port 3).idResults =
        [.valid
          { classCode := 0x0C, railSettle := 0x05, bootLimit := 0x14, keepalivePeriod := 0x04
            lapseLimit := 0x03, resumeLimit := 0x0A }] := by decide +kernel

/-- R76: the read of a port that withdraws is abandoned, and the next read begins. -/
theorem test_reader_withdrawal :
    (after (.readerWithdrawal 3)
        (reader [3, 4] (.reading (readOf3 1)) (on 3 { Port.reset with toReader := [.withdrawal] }))).reader =
      { queue := [4], state := .reading { port := 4, tryNo := 1, bytes := [] } } := by decide +kernel

/-- A port IDENTIFYING with what is on its way to the reader. -/
def identifying (up : List ReaderMsg) : Port :=
  { cam .identifying .off .closed with classRecord := none, toReader := up }

/-- R69: a removal annuls a join on its way, behind the withdrawal of the removal before. -/
theorem test_removal_annuls_the_join :
    ((after (.plugDebounceExpiry 3)
        (reader [3, 4] (.reading (readOf3 1)) (debounced (identifying [.withdrawal, .join]) false))).port 3).toReader =
      [.withdrawal] ∧
    (reader [3, 4] (.reading (readOf3 1)) (debounced (identifying [.withdrawal, .join]) false)).settled = true := by
  decide +kernel

/-- R76: the result of an earlier read does not reach the next identification. -/
theorem test_past_result :
    ((after (.tryEnd (.noAck .offset))
        (reader [3] (.reading (readOf3 2)) (on 3 (identifying [.withdrawal, .join])))).port 3).idResults = [] ∧
    (reader [3] (.reading (readOf3 2)) (on 3 (identifying [.withdrawal, .join]))).settled = true ∧
    (reader [3] (.reading (readOf3 2)) (on 3 (identifying [.withdrawal, .join]))).queuesSound = true := by
  decide +kernel

/-- R78: a rig reset stops the try on the bus with both wires and the select released. -/
theorem test_rig_reset_on_the_bus :
    (after (.rigReset 8) (reader [3] (.reading (readOf3 1)) State.reset)).acts =
      [.idBusRelease, .idRelease] := by decide +kernel

theorem test_identity_result_premises :
    ((on 3 { cam .identifying .off .closed with classRecord := none, idResults := [.valid cls] }).settled = true ∧
        ((on 3 { cam .identifying .off .closed with classRecord := none, idResults := [.valid cls] }).port 3).idResults =
          .valid cls :: []) ∧
      ((on 3 { cam .identifying .off .closed with classRecord := none, idResults := [.plugBad] }).settled = true) ∧
      ((on 3 { cam .off .off .closed with idResults := [.plugNoack] }).settled = true ∧
        ((on 3 { cam .off .off .closed with idResults := [.plugNoack] }).port 3).state ≠ .identifying) := by
  decide +kernel

/-! ## Governor and supply -/

/-- A port of a state hands the governor a message, or has one from it. -/
def mail (st : PState) (up : List GovMsg) (down : List PortMsg) : State :=
  on 3 { cam st .awake (if st.laneOpen then .free else .closed) with toGovernor := up, fromGovernor := down }

theorem test_governor_premises :
    ((mail .queued [.claim] []).settled = true ∧ ((mail .queued [.claim] []).port 3).toGovernor = .claim :: []) ∧
      (((mail .off [.withdrawal] []).setGovernor { State.reset.governor with queue := [1, 3, 2] }).settled = true ∧
        [1, 3, 2] = [1] ++ (3 : PortNo) :: [2] ∧ (3 : PortNo) ∉ ([1] : List PortNo)) ∧
      (((mail .ready [.release] []).setGovernor
          { State.reset.governor with holders := State.reset.governor.holders.set 3 true }).settled = true) ∧
      ((mail .off [.returnedGrant] []).settled = true ∧ (mail .off [.returnedGrant] []).governor.holders.get 3 = false) ∧
      ((mail .queued [] [.grant]).settled = true ∧ ((mail .queued [] [.grant]).port 3).fromGovernor = .grant :: []) ∧
      ((mail .off [] [.grant]).port 3).state ≠ .queued ∧
      ((State.reset.setGovernor { State.reset.governor with history := [7, 0] }).settled = true ∧
        ([7, 0] : List Nat)[(1 : Fin 4).val]? = some 0) ∧
      ((State.reset.setGovernor { State.reset.governor with state := .holdoff 0 }).settled = true ∧
        (State.reset.setGovernor { State.reset.governor with state := .holdoff 0 }).rigSound = true) ∧
      (State.reset.setGovernor { State.reset.governor with queue := [3] }).governor.canServe = true := by
  decide +kernel

/-- The holdoff has run out and a trip waits as well. -/
def trippedAtExpiry : State :=
  (State.reset.setGovernor { State.reset.governor with state := .holdoff 0 }).setMonitor
    { State.reset.monitor with tripsHanded := 1 }

theorem test_tripped_at_expiry_premises :
    trippedAtExpiry.settled = true ∧ trippedAtExpiry.rigSound = true ∧
      trippedAtExpiry.governor.state = .holdoff 0 ∧ 0 < trippedAtExpiry.monitor.tripsHanded := by decide +kernel

/-- R101: with the default limits a claim is served at once, and the port is handed its grant. -/
theorem test_claim_served :
    ((after (.claim 3) (mail .queued [.claim] [])).port 3).fromGovernor = [.grant] ∧
      (after (.claim 3) (mail .queued [.claim] [])).governor.history = [200] := by decide +kernel

/-- Port 3 holds a slot, with its grant on the way and a claim handed anew (log entry 35). -/
def crossing : State :=
  (mail .queued [.withdrawal, .claim] [.grant]).setGovernor
    { State.reset.governor with holders := State.reset.governor.holders.set 3 true }

theorem test_crossing_premises :
    crossing.settled = true ∧ crossing.portsSound = true ∧ crossing.queuesSound = true ∧
      crossing.governor.holders.get 3 = true ∧
      ((after (.withdrawal 3) crossing).port 3).toGovernor = .claim :: [] := by decide +kernel

/-- The grant powers the port, and the claim joins nothing. -/
theorem test_crossing :
    let s := after (.grant 3) (after (.claim 3) (after (.withdrawal 3) crossing))
    s.governor.queue = [] ∧ (s.port 3).state = .powering ∧ s.governor.slotsHeld = 1 := by decide +kernel

theorem test_supply_premises :
    (State.reset.settled = true ∧ State.reset.monitor.state = .armed ∧ 10799 < State.reset.monitor.tripLevel * 100) ∧
      ((State.reset.setMonitor { State.reset.monitor with levelsHanded := [110] }).settled = true ∧
        (State.reset.setMonitor { State.reset.monitor with levelsHanded := [110] }).monitor.levelsHanded = 110 :: []) ∧
      ((State.reset.setMonitor { State.reset.monitor with tripsHanded := 1 }).settled = true ∧
        0 < (State.reset.setMonitor { State.reset.monitor with tripsHanded := 1 }).monitor.tripsHanded) ∧
      ((mail .booting [] [.tripCut]).settled = true ∧ ((mail .booting [] [.tripCut]).port 3).fromGovernor = .tripCut :: []) := by
  decide +kernel

/-- R104: the supply trips below 10.8 V and arms above 11.1 V, not at either level. -/
theorem test_supply_levels :
    (after (.supplyTrip 10800) State.reset).monitor.state = .armed ∧
      (after (.supplyTrip 10799) State.reset).monitor.state = .tripped ∧
      (after (.reArm 11100) (after (.supplyTrip 10799) State.reset)).monitor.state = .tripped ∧
      (after (.reArm 11101) (after (.supplyTrip 10799) State.reset)).monitor.state = .armed := by decide +kernel

/-! ## The chain -/

theorem test_read_premises :
    ((chain { State.reset.walker with current := some (reads (.headerRead 0x1000)) } State.reset).settled = true ∧
        State.reset.walker.state.attached = false) ∧
      ((chain (walker .watching (some .linkRead) []) State.reset).settled = true ∧
        ((0x41 : Addr).toNat % 64 ≠ 0) ∧ (0x40 : Addr).toNat % 64 = 0) ∧
      ((fetching State.reset).settled = true ∧ (fetching State.reset).walker.current = some (reads (.blockRead 0x400)) ∧
        (reads (.blockRead 0x400)).atHalt = false) := by decide +kernel

/-- One block for each reason of Table 8-2, at its boundary (R132 to R135). -/
theorem test_refusals :
    refusalOf (posted 10 []) State.reset = some .badKind ∧ refusalOf (posted 0 []) State.reset = some .badKind ∧
      refusalOf (posted 1 [(10, 1), (16, 1)]) State.reset = some .badFlags ∧
      refusalOf (posted 4 [(10, 8), (16, 1)]) State.reset = some .badFlags ∧
      refusalOf (posted 5 [(10, 2), (16, 1)]) State.reset = some .badFlags ∧
      refusalOf (posted 1 [(16, 1), (18, 1)]) State.reset = some .badFlags ∧
      refusalOf (posted 1 []) State.reset = some .badTarget ∧
      refusalOf (posted 1 [(10, 2), (16, 8)]) State.reset = some .badTarget ∧
      refusalOf (posted 1 [(10, 2)]) State.reset = some .badTarget ∧
      refusalOf (posted 7 [(16, 1)]) State.reset = some .badTarget ∧
      refusalOf (posted 7 [(20, 8)]) State.reset = some .badParam ∧
      refusalOf (posted 7 [(21, 2), (22, 1), (23, 4), (24, 4)]) State.reset = some .badParam ∧
      refusalOf (posted 8 [(21, 1), (23, 5), (24, 1)]) State.reset = some .badParam ∧
      refusalOf (posted 9 [(20, 1), (21, 5)]) State.reset = some .badParam ∧
      refusalOf (posted 6 [(16, 1), (28, 13)]) State.reset = some .badProfile ∧
      refusalOf (posted 6 [(16, 1), (20, 2), (28, 1)]) State.reset = some .badProfile ∧
      refusalOf (posted 7 []) (grouped 1 State.reset) = some .groupBusy ∧
      refusalOf (posted 9 []) (State.reset.setGovernor { State.reset.governor with queue := [3] }) = some .rigBusy := by
  decide +kernel

/-- A valid block of each kind. -/
theorem test_valid_requests :
    refusalOf (posted 7 [(21, 2), (22, 1), (23, 4), (24, 5)]) State.reset = none ∧
      refusalOf (posted 8 [(21, 1), (22, 7), (23, 4), (24, 3), (25, 255)]) State.reset = none ∧
      refusalOf (posted 8 [(20, 7), (21, 2)]) State.reset = none ∧
      refusalOf (posted 9 [(20, 1), (21, 4)]) State.reset = none ∧
      (refusalOf (posted 5 [(16, 8)]) (fetching State.reset) = none ∧ (fetching State.reset).portsSound = true) ∧
      refusalOf (posted 6 [(16, 8)]) State.reset = none ∧
      refusalOf (posted 6 [(16, 8), (20, 4), (28, 12)]) State.reset = none ∧
      refusalOf (posted 1 [(16, 8)]) State.reset = none ∧
      refusalOf (posted 4 [(10, 7), (18, 1)]) (grouped 0 State.reset) = none := by decide +kernel

/-- R148: a SET_GROUP of ports 4 and 5 led by the second. -/
theorem test_set_group :
    ((after (.blockReadComplete (posted 7 [(21, 2), (22, 1), (23, 4), (24, 5)])) (fetching State.reset)).group 0).defn =
      some { members := [4, 5], lead := 1 } := by decide +kernel

/-- The premises of the port-target statements, with no port to wait, with one, and with all entries taken. -/
theorem test_port_target_premises :
    ((fetching State.reset).requestsSound = true ∧
        (allPorts.any fun p => decide (p ∈ requestPorts (posted 1 [(16, 8)]) State.reset) &&
          answerTo (State.reset.port p) (requestSet (posted 1 [(16, 8)])) == .waiting) = false) ∧
      ((fetching (on 3 (cam .off .off .closed))).requestsSound = true ∧
        answerTo (cam .off .off .closed) (requestSet (posted 1 [(16, 8)])) = .waiting ∧
        (3 : PortNo) ∈ requestPorts (posted 1 [(16, 8)]) State.reset ∧
        (fetching (on 3 (cam .off .off .closed))).entry 0 = none) ∧
      ((fetching (grouped 0 State.reset)).requestsSound = true ∧
        (fetching (grouped 0 State.reset)).sweep 0 = none ∧ groupDef.members[groupDef.lead]? = some 14) := by
  decide +kernel

/-- Port 3 waits for all eight entries. -/
def allTaken : State :=
  fetching
    { on 3 { cam .queued .awake .closed with waiters := [0, 1, 2, 3, 4, 5, 6, 7] } with
      inflight := Table.replicate 8 (some (waitingFor 3)) }

theorem test_stall_premises :
    allTaken.requestsSound = true ∧ allTaken.settled = true ∧ (∀ f, allTaken.entry f ≠ none) ∧
      (after (.blockReadComplete (posted 1 [(16, 8)])) allTaken).walker.state = .stalled := by decide +kernel

/-- Every sweep record taken by a sweep of line 0. -/
def allSweeping : State :=
  { grouped 4 State.reset with pool := Table.replicate 4 (some (sweep 1 4 (.line 0))) }

/-- A WAKE of group 0 with a stagger of 1 beat. -/
def staggered : Table Byte 64 := posted 1 [(10, 2), (18, 1)]

/-- R142: a staggered request stalls with all entries taken, and with all sweep records taken. -/
theorem test_staggered_stall_premises :
    ((grouped 0 allTaken).requestsSound = true ∧ (grouped 0 allTaken).settled = true ∧
        (∀ f, (grouped 0 allTaken).entry f ≠ none) ∧ refusalOf staggered (grouped 0 allTaken) = none ∧
        (after (.blockReadComplete staggered) (grouped 0 allTaken)).walker.state = .stalled) ∧
      ((fetching allSweeping).requestsSound = true ∧ (fetching allSweeping).settled = true ∧
        (∀ q, (fetching allSweeping).sweep q ≠ none) ∧ refusalOf staggered (fetching allSweeping) = none ∧
        (after (.blockReadComplete staggered) (fetching allSweeping)).walker.state = .stalled) := by
  decide +kernel

/-- R139: a WAKE of a port in OFF is dispatched into entry 0. -/
theorem test_wake_dispatched :
    ((after (.blockReadComplete (posted 1 [(16, 8)])) (fetching (on 3 (cam .off .off .closed)))).port 3).state = .queued ∧
      (after (.blockReadComplete (posted 1 [(16, 8)])) (fetching (on 3 (cam .off .off .closed)))).entry 0 =
        some { waitingFor 3 with notify := false, block := 0x400 } := by decide +kernel

theorem test_target_set_premises :
    (declines (cam .ready .paused .free) { target := .awake, resume := true, cut := false } = none ∧
        declines (cam .stopping .off .free) { target := .off, resume := false, cut := true } = none) ∧
      (declines (cam .ready .awake .free) { target := .awake, resume := true, cut := false } = some .notPaused) ∧
      (stepCall .ready .paused ≠ stepCall .ready .awake ∧ stepCall .pausing .awake ≠ stepCall .pausing .paused) := by
  decide +kernel

/-- A SLEEP with CUT. -/
def cutOff : TargetSet := { target := .off, resume := false, cut := true }

/-- Port 3 in STOPPING with target OFF, entry 0 waiting for it. -/
def stopping : State :=
  (on 3 { cam .stopping .off .free with waiters := [0], timer := some 9 }).setEntry 0 (some (waitingFor 3))

/-- R33, R12: a cut of a stopping port gives its waiter REACHED; a WAKE of a READY port clears the recovery count; a
target set beside a phrase leaves the lane. -/
theorem test_target_set_answers :
    (answerTo (stopping.port 3) cutOff = .decided .reached ∧ cutOff.target = (stopping.port 3).target ∧
        (targetSet 3 cutOff none stopping).2.entry 0 = some ((waitingFor 3).given 3 .reached)) ∧
      (answerTo (cam .ready .awake .free) { target := .awake, resume := false, cut := false } = .decided .already ∧
        ((targetSet 3 { target := .awake, resume := false, cut := false } none
          (on 3 { cam .ready .awake .free with recovery := 2 })).2.port 3).recovery = 0) ∧
      ((cam .ready .awake (.sending (newPhrase .keep []) 1)).lane ≠ .free ∧
        ((targetSet 3 { target := .paused, resume := false, cut := false } none
          (on 3 (cam .ready .awake (.sending (newPhrase .keep []) 1)))).2.port 3) =
          { cam .ready .paused (.sending (newPhrase .keep []) 1) with stamp := 1, stepClaim := true }) := by
  decide +kernel

theorem test_profile_premises :
    ((fetching State.reset).settled = true ∧ refusalOf (posted 6 [(16, 8), (20, 4), (28, 1)]) (fetching State.reset) = none) ∧
      ((chain { walker .fetching (some (.listRead 4 1)) [] with
            copy := some { address := 0x400, data := posted 6 [(16, 8), (20, 4), (28, 1)] } } State.reset).settled = true ∧
        [{ slot := ([5, 0, 0xB0, 4] : List Byte).getD 0 0
           value := ([5, 0, 0xB0, 4] : List Byte).getD 3 0 ++ ([5, 0, 0xB0, 4] : List Byte).getD 2 0 }] = [entry5]) := by
  decide +kernel

/-- A sound port in a state that a replacement of one entry waits for. -/
def replaced (st : PState) (lane : Lane) (list : Profile) : State :=
  on 3 { cam st .awake lane with replacements := [list], profile := [entry5] }

theorem test_replacement_premises :
    ((replaced .tuning (.sending (newPhrase .set entry5.payload) 1) [entry5]).portsSound = true ∧
        (replaced .tuning (.sending (newPhrase .keep []) 1) [entry5]).portsSound = true ∧
        (replaced .tuning (.sending (newPhrase .keep []) 1) []).portsSound = true ∧
        (replaced .tuning .free [entry5]).portsSound = true) ∧
      ((replaced .ready (.sending (newPhrase .keep []) 1) [entry5]).portsSound = true ∧
        (replaced .ready .free [entry5]).portsSound = true ∧ (replaced .ready .free []).portsSound = true ∧
        (replaced .ready (.receiving (heard [0x9F])) [entry5]).portsSound = true) ∧
      ((replaced .paused .free [entry5]).portsSound = true ∧ (replaced .queued .closed [entry5]).portsSound = true) ∧
      (replaced .ready .free [entry5]).settled = true := by decide +kernel

/-- R86: a replacement at a READY port with a free lane is sent at once. -/
theorem test_replacement :
    ((after (.profileReplacement 3) (replaced .ready .free [entry5])).port 3).lane =
      .sending (newPhrase .set [5, 4, 0xB0]) 2 := by decide +kernel

/-- The DONE write of entry 0, and the TAKEN write of a take. -/
def doneWrite : BlockWrite :=
  { address := 0x400, form := .done noOutcomes, notify := true, entry := some 0, ofTake := false }

/-- A copy held by a STALLED walker while the DONE write of entry 0 is made. -/
def stalledOnDone : State :=
  (chain { walker .stalled (some (.blockWrite doneWrite)) [] with
      copy := some { address := 0x440, data := posted 1 [(16, 8)] } } (on 3 (cam .off .off .closed))).setEntry 0
    (some { waitingFor 3 with status := .held })

theorem test_write_premises :
    ((chain (walker .watching (some (.blockWrite doneWrite)) []) State.reset).settled = true ∧
        (chain (walker .watching (some (.blockWrite { doneWrite with form := .taken })) []) State.reset).settled = true) ∧
      (stalledOnDone.walker.state = .stalled ∧ numAt (posted 1 [(16, 8)]) 8 = 1 ∧
        stalledOnDone.walker.current = some (reads (.blockWrite doneWrite))) ∧
      ((chain (walker .detaching (some (.blockWrite doneWrite)) []) State.reset).settled = true ∧
        doneWrite.form ≠ .taken) ∧
      ((chain (walker .stalled (some (.blockWrite { doneWrite with entry := none })) []) State.reset).settled = true ∧
        ({ doneWrite with entry := none } : BlockWrite).entry = none) ∧
      ((chain (walker .watching (some .headerWrite) [.linkRead]) State.reset).settled = true) ∧
      ((chain (walker .detaching (some .headerWrite) []) State.reset).settled = true) ∧
      (((chain (walker .watching none []) State.reset).setWriter
          { State.reset.writer with
            posting := [.governor], current := some { slot := .port 0, parts := [], orphan := false } }).settled = true) ∧
      ((chain { walker (.halted .badLink) none [] with
          current := some { reads .headerWrite with atHalt := true } } State.reset).settled = true) ∧
      ((State.reset.setWriter
          { State.reset.writer with current := some { slot := .port 0, parts := [], orphan := true } }).settled = true) := by
  decide +kernel

/-- R122, R123: the entry that is freed is taken again by the held copy. -/
theorem test_retake :
    (after .blockWriteComplete stalledOnDone).entry 0 = some { waitingFor 3 with notify := false, block := 0x440 } ∧
      (after .blockWriteComplete stalledOnDone).walker.state = .fetching ∧
      (after .blockWriteComplete stalledOnDone).walker.finishedCount = 1 := by decide +kernel

/-! ## The register window -/

theorem test_attach_detach_premises :
    (State.reset.settled = true ∧ (0 : Word).getLsbD 3 = false ∧ State.reset.walker.hasHeaderRead = false) ∧
      ((State.reset.setRegs { State.reset.regs with boardLo := 0x1000 }).settled = true ∧
        ((0x1000 : Word).toNat % 64 = 0)) ∧
      ((chain (walker .fetching none []) State.reset).settled = true ∧
        (chain (walker .stalled none []) (State.reset.setEntry 0 (some (waitingFor 3)))).settled = true) ∧
      ((chain (walker .detaching (some .linkRead) []) State.reset).settled = true) ∧ (8 : Word).getLsbD 3 = true := by
  decide +kernel

/-- R115: ATTACH with BOARD_BASE 0 halts with BAD_HEADER; with a good one the header is read. -/
theorem test_attach :
    readRegister .control (after (.attach 1) State.reset) = 0x150100 ∧
      (after (.attach 1) (State.reset.setRegs { State.reset.regs with boardLo := 0x1000 })).walker.current =
        some { access := .headerRead 0x1000, read := some (0x1000, 64), parts := [], atHalt := false } := by
  decide +kernel

theorem test_window_premises :
    (State.reset.settled = true ∧ (3 : Word).getLsbD 0 = (3 : Word).getLsbD 1 ∧
        (1 : Word).getLsbD 0 ≠ (1 : Word).getLsbD 1 ∧ (1 : Word).getLsbD 3 = false) ∧
      (AccessSize.word.aligned 0x1C = true ∧ AccessSize.half.aligned 0x0A = true) ∧
      ((chain (walker .watching none []) State.reset).settled = true ∧
        (chain (walker .watching none []) State.reset).walker.hasLinkRead = false) ∧
      ((chain (walker .watching (some .linkRead) []) State.reset).walker.hasLinkRead = true) ∧
      ((chain (walker .stalled none []) State.reset).settled = true) ∧
      (State.reset.walker.state = .detached ∧ State.reset.walker.current = none) := by decide +kernel

/-! ## Studio inputs and formats -/

/-- Line 2 bound to group 0 with WAKE on RISE and a stagger, its raw level as given and its debounce expired. -/
def pressed (high : Bool) (stagger : Nat) (s : State) : State :=
  (s.setBinding 2 (some { group := 0, action := .wake, edge := .rise, stagger := stagger })).setLine 2
    { Line.reset with raw := high, debounce := some 0 }

theorem test_line_premises :
    (State.reset.settled = true ∧ true ≠ (State.reset.line 2).raw) ∧
      ((pressed false 0 State.reset).settled = true ∧
        ((pressed false 0 State.reset).line 2).raw = ((pressed false 0 State.reset).line 2).level) ∧
      ((pressed true 0 State.reset).settled = true ∧ ((pressed true 0 State.reset).line 2).debounce = some 0 ∧
        ((pressed true 0 State.reset).line 2).raw ≠ ((pressed true 0 State.reset).line 2).level ∧
        ((pressed true 0 State.reset).group 0).defn = none) ∧
      ((pressed true 3 (grouped 0 State.reset)).settled = true ∧
        (pressed true 3 (grouped 0 State.reset)).sweep 0 = none) ∧
      ((pressed true 3 allSweeping).settled = true ∧ ∀ r, (pressed true 3 allSweeping).sweep r ≠ none) := by
  decide +kernel

/-- A STALLED walker that holds a copy, beside a line whose edge starts a sweep that ends at once. -/
def pressedStalled : State :=
  chain { walker .stalled none [] with copy := some { address := 0x440, data := posted 1 [(16, 8)] } }
    (pressed true 0 (grouped 0 State.reset))

theorem test_ending_trigger_premises :
    ((pressed true 0 (grouped 0 State.reset)).sweepEndsAt 2 = true ∧ groupDef.members.Nodup ∧
        (pressed true 0 (grouped 0 State.reset)).settled = true) ∧
      (pressed true 3 (grouped 0 State.reset)).sweepEndsAt 2 = false ∧
      ((pressed true 3 (State.reset.setGroup 0 { defn := some { members := [5], lead := 0 }, active := 0 })).sweepEndsAt 2 =
          true) ∧
      (pressedStalled.sweepEndsAt 2 = true ∧ pressedStalled.walker.state = .stalled ∧
        pressedStalled.walker.copy.isSome = true ∧ (pressedStalled.group 0).defn = some groupDef) := by
  decide +kernel

/-- R160, R161, R122: every member takes its target set in the event, and the held copy is taken again. -/
theorem test_ending_trigger :
    ((after (.inputDebounceExpiry 2)
        (pressed true 0 (grouped 0 (on 9 (cam .off .off .closed))))).port 9).state = .queued ∧
      (after (.inputDebounceExpiry 2) pressedStalled).walker.state = .fetching := by decide +kernel

/-- Table 10-6: the port slot of a port, from its state to its unused bytes. -/
theorem test_port_slot :
    portSlotHead { cam .ready .awake .free with firmware := some 3, profile := [entry5], silence := 2 } =
      [7, 1, 0, 0, 0x19, 3, 7, 2, 3, 2, 2, 3, 2, 0, 0, 0, 1, 0, 0, 0] := by decide

/-- R182: the second byte of BOARD_LO, the low half of CONTROL after power-on, and offset 0x1C. -/
theorem test_narrow_reads :
    readWindow 0x15 .byte (State.reset.setRegs { State.reset.regs with boardLo := 0x1234 }) = [0x12] ∧
      readWindow 0x04 .half State.reset = [0, 1] ∧ readWindow 0x1C .word State.reset = [0, 0, 0, 0] := by
  decide

/-- R167: the three results of a matching edge. -/
theorem test_trigger_results :
    ((after (.inputDebounceExpiry 2) (pressed true 0 State.reset)).line 2).result = .noGroup ∧
      ((after (.inputDebounceExpiry 2) (pressed true 3 allSweeping)).line 2).result = .noSweep ∧
      ((after (.inputDebounceExpiry 2) (pressed true 3 (grouped 0 State.reset))).line 2).result = .started := by
  decide +kernel

/-- A writer that is idle while slots wait, between events (R178), and a header anchor. -/
theorem test_format_premises :
    (walker .watching none []).state.attached = true ∧ (walker .watching none []).anchor = .header ∧
      (walker .watching none []).board = some { header := 0x1000, statusPage := 0x2000 } ∧
      State.reset.governor.queue.length ≤ 16 ∧ State.reset.governor.state = .opened := by decide +kernel

/-! ## Invariants -/

/-- The premises of the statements about every step, with a next state. -/
theorem test_invariant_premises :
    (allTaken.portsSound = true ∧ allTaken.requestsSound = true ∧ allTaken.walkerSound = true ∧
        allTaken.settled = true ∧ allTaken.rigSound = true ∧ allTaken.postingSound = true) ∧
      nextIs (step (allTaken.withPending [.nudge .word 0]))
        (chain { allTaken.walker with lookAgain := true } allTaken) = true := by decide +kernel

/-- A keepalive of port 3 that the attached walker publishes. -/
def beatingAttached : State :=
  (chain (walker .watching none []) (on 3 (beating 1))).withPending [.keepaliveBoundary 3]

/-- R5, R178: the count of silence has changed, and the write of the port's slot has begun. -/
theorem test_posting_premises :
    nextIs (step beatingAttached) (after (.keepaliveBoundary 3) (beatingAttached.withPending [])) = true ∧
      portSlotHead ((after (.keepaliveBoundary 3) beatingAttached).port 3) ≠ portSlotHead (beatingAttached.port 3) ∧
      (after (.keepaliveBoundary 3) beatingAttached).writer.current.map (·.slot) = some (.port 3) := by
  decide +kernel

/-- A port whose claim is on its way, before and after it is taken. -/
theorem test_queue_invariant_premises :
    ((mail .queued [.claim] []).portsSound = true ∧ (mail .queued [.claim] []).queuesSound = true) ∧
      (after (.claim 3) (mail .queued [.claim] [])).queuesSound = true := by decide +kernel

end Sys2Proof.Tests
end

section
/-! What each operation of a port's sequencer and link engine makes of the one port it works on, as a function of
that port and of the beat: each is tied to the operation by a `_port` lemma, so that a proof about a port's record
never opens the state around it. -/

set_option Elab.async false

namespace Sys2Proof.Machine

/-! ## The port alone -/

namespace Port

/-- The port entering a state (R4, R5, R84). -/
def entered (st : PState) (beat : Word) (x : Port) : Port :=
  if x.state = st then x
  else
    { x with
      state := st
      stateBeat := beat
      timer := none
      silence := if st.isAlive then x.silence else 0
      keepDue := if st.isAlive then x.keepDue else false
      stepClaim := if st.isAlive then x.stepClaim else false
      cursor := if st = .tuning then x.cursor else 0
      restart := if st = .tuning then x.restart else false }

/-- The port handing the governor a message. -/
def told (m : GovMsg) (x : Port) : Port := { x with toGovernor := x.toGovernor ++ [m] }

/-- The port reaching its target (R14). -/
def reachedTarget (x : Port) : Port := { x with waiters := [], recovery := 0 }

/-- The port reaching its target if it is in its goal state (R14). -/
def reachedIfGoal (x : Port) : Port := if x.state = x.target.goal then x.reachedTarget else x

/-- The port entering QUEUED (R3). -/
def queuedUp (beat : Word) (x : Port) : Port := (x.entered .queued beat).told .claim

/-- The three counts at 0 (R19). -/
def countsCleared (x : Port) : Port := { x with bootAttempts := 0, tripCount := 0, recovery := 0 }

/-- The port entering OFF (R19). -/
def wentOff (beat : Word) (x : Port) : Port :=
  if x.target = .off then (x.countsCleared.entered .off beat).reachedTarget
  else (x.countsCleared.entered .off beat).queuedUp beat

/-- The port with its rail cut, if it was on (R1, R53). -/
def railCut (why : EndReason) (x : Port) : Port :=
  if x.railOn then { x with lane := .closed, stepClaim := false, wakePulse := none, endReason := why } else x

/-- The port giving up its claim or its slot (R3). -/
def gaveUp (x : Port) : Port :=
  if x.state = .queued then x.told .withdrawal
  else if x.state.isWarming then x.told .release
  else x

/-- The port entering FAULTED (R7). -/
def faultEntered (r : FaultReason) (beat : Word) (x : Port) : Port :=
  { (x.railCut (.fault r)).gaveUp with target := .off, endReason := .fault r, waiters := [] }.entered (.faulted r) beat

/-- The port raising its step claim (R62). -/
def claimRaised (x : Port) : Port :=
  { x with stepClaim := x.stepClaim || (stepCall x.state x.target).isSome }

/-- The port entering READY (R24). -/
def readied (beat : Word) (x : Port) : Port := ((x.entered .ready beat).reachedIfGoal).claimRaised

/-- The port at the end of tuning (R83). -/
def tuned (beat : Word) (x : Port) : Port :=
  { x with stale := false, cursor := 0, restart := false }.readied beat

/-- The port with its whole profile to send, in TUNING (R81). -/
def profileToSend (beat : Word) (x : Port) : Port :=
  { x.entered .tuning beat with cursor := 0, restart := false, stale := true }

/-- The port entering TUNING (R81). -/
def tuningEntered (beat : Word) (x : Port) : Port :=
  if x.profile = [] then (x.profileToSend beat).tuned beat else (x.profileToSend beat).claimRaised

/-- The port entering PAUSING (R25). -/
def pausingEntered (beat : Word) (x : Port) : Port :=
  { x.entered .pausing beat with
    timer := if x.target = Target.paused then some Config.holdLimitMs else none }.claimRaised

/-- The port entering RESUMING (R27). -/
def resumingEntered (beat : Word) (x : Port) : Port :=
  { x.entered .resuming beat with
    timer := if x.target = Target.awake then some x.resumeMs else none }.claimRaised

/-- The port entering STOPPING (R28). -/
def stoppingEntered (beat : Word) (x : Port) : Port :=
  { x.entered .stopping beat with timer := some Config.stopLimitMs }

/-- The port entering PAUSED (R25, R26). -/
def pausedEntered (beat : Word) (x : Port) : Port := ((x.entered .paused beat).reachedIfGoal).claimRaised

/-- The port after a SET that ended OK (R83). -/
def setEnded (beat : Word) (x : Port) : Port :=
  if x.restart then
    if x.profile = [] then { x with cursor := 0, restart := false }.tuned beat
    else { x with cursor := 0, restart := false }.claimRaised
  else if x.cursor + 1 < x.profile.length then { x with cursor := x.cursor + 1 }.claimRaised
  else x.tuned beat

/-- The port after a step phrase has ended (Table 1-3a). -/
def stepEnded (n : PhraseName) (ok : Bool) (beat : Word) (x : Port) : Port :=
  match n, ok with
  | .keep, _ => x
  | .halt, _ => x.stoppingEntered beat
  | .set, true => x.setEnded beat
  | .hold, true => x.pausingEntered beat
  | .release, true => x.resumingEntered beat
  | .set, false => x.faultEntered .link beat
  | .hold, false => x.faultEntered .link beat
  | .release, false => x.faultEntered .link beat

/-- The port after a KEEP has ended (R86). -/
def keepPassed (beat : Word) (x : Port) : Port :=
  if x.state = .ready ∧ x.stale then x.tuningEntered beat else x

/-- The port at a grant point (R61). -/
def granted (x : Port) : Port :=
  if x.lane = .free then
    if x.keepDue then { x with lane := .sending (newPhrase .keep []) Config.ackWaitMs }
    else if x.stepClaim then
      match x.chooseStep with
      | some ph => { x with stepClaim := false, lane := .sending ph Config.ackWaitMs }
      | none => { x with stepClaim := false }
    else x
  else x

/-- The port after a whole exchange (R59). -/
def exchanged (x : Port) : Port := if x.state.isAlive then { x with silence := 0, keepDue := false } else x

/-- The port with its lane FREE. -/
def laneFreed (x : Port) : Port := { x with lane := .free }

/-- The port after the end of a phrase of the part (R52). -/
def phraseEnded (ph : Phrase) (ok : Bool) (beat : Word) (x : Port) : Port :=
  let y := if ok then x.laneFreed.exchanged else x.laneFreed
  (if ph.name = .keep then y.keepPassed beat else y.stepEnded ph.name ok beat).granted

/-- The port after a valid HELLO (R22, R31, R58). -/
def helloTaken (c f : Byte) (beat : Word) (x : Port) : Port :=
  let y : Port := { x with firmware := some f }
  if x.classRecord.map (·.classCode) ≠ some c then y.faultEntered .mismatch beat
  else if x.state = .booting then
    { y.told .release with silence := 0, bootAttempts := 0, tripCount := 0 }.tuningEntered beat
  else if x.state.isAlive then
    { y with
      timer := none, silence := 0, keepDue := false, stale := true, bootAttempts := 0
      tripCount := 0, stepClaim := false }.tuningEntered beat
  else y

/-- The port after a valid SETTLED (R25). -/
def settledTaken (beat : Word) (x : Port) : Port :=
  if x.state = .pausing then x.pausedEntered beat else x

/-- The port after a valid AWAKE (R27). -/
def awakeTaken (beat : Word) (x : Port) : Port :=
  if x.state = .resuming then
    if x.stale then x.tuningEntered beat else x.readied beat
  else x

/-- The port after a valid PARTING that draws a stamp where it is alive (R28, R30). -/
def partingTaken (stamp beat : Word) (x : Port) : Port :=
  if x.state.isAlive then
    { x.railCut .parted with stamp := stamp, target := .off, waiters := [] }.wentOff beat
  else if x.state = .stopping then (x.railCut .stopped).wentOff beat
  else x

/-- The port after a lapse (R32). -/
def lapsed (beat : Word) (x : Port) : Port :=
  let y : Port := { x with stale := true }
  if x.target = .off then (y.railCut .lapsed).wentOff beat
  else if x.recovery < Config.maxRecoveries then
    { y.railCut .lapsed with recovery := x.recovery + 1 }.queuedUp beat
  else y.faultEntered .lapse beat

/-- The port after the cut of a SLEEP with CUT (R33). -/
def cutOff (beat : Word) (x : Port) : Port := (x.gaveUp.railCut .cut).wentOff beat

/-- The port handing the reader a join. -/
def joinHanded (ticket : Nat) (x : Port) : Port :=
  { x with toReader := x.toReader ++ [.join], joinTicket := ticket }

/-- The port after a debounced insertion (R68). -/
def inserted (ticket : Nat) (beat : Word) (x : Port) : Port :=
  ({ x with plugged := true, idResults := [] }.entered .identifying beat).joinHanded ticket

/-- The port leaving the Reader Queue (R29), `waits` being whether it waits there. -/
def readerLeft (waits : Bool) (x : Port) : Port :=
  if x.state = .identifying then
    { x with
      toReader := x.toReader.filter (· != .join) ++ (if waits || x.joining then [] else [.withdrawal]) }
  else x

/-- The port after a debounced removal (R29). -/
def removed (waits : Bool) (beat : Word) (x : Port) : Port :=
  { ((x.railCut .unplugged).gaveUp.readerLeft waits).countsCleared with
    classRecord := none, firmware := none, target := .off, endReason := .unplugged, plugged := false
    waiters := [] }.entered .empty beat

/-- The port read again after CLEAR (R77). -/
def identifiedAgain (ticket : Nat) (beat : Word) (x : Port) : Port :=
  (x.entered .identifying beat).joinHanded ticket

/-- The port after CLEAR (R8). -/
def clearTaken (ticket : Nat) (beat : Word) (x : Port) : Port :=
  match x.state with
  | .faulted .plugNoack => x.identifiedAgain ticket beat
  | .faulted .plugBad => x.identifiedAgain ticket beat
  | .faulted _ => x.wentOff beat
  | _ => x

/-- The port after the result of an identity read (R74). -/
def resultTaken (r : IdResult) (beat : Word) (x : Port) : Port :=
  if x.state = .identifying then
    match r with
    | .valid c => { x with classRecord := some c }.wentOff beat
    | .plugBad => x.faultEntered .plugBad beat
    | .plugNoack => x.faultEntered .plugNoack beat
  else x

/-- The wait of PAUSING or RESUMING after a target set (R4). -/
def waitedFor (awaited : Target) (ms : Nat) (x : Port) : Port :=
  { x with
    timer :=
      if x.target = awaited then
        if x.timer.isSome ∨ x.lane.stepInFlight then x.timer else some ms
      else none }

/-- The port after a target set that may change what is called for (R62). -/
def calledAgain (old : Target) (x : Port) : Port :=
  if stepCall x.state x.target ≠ stepCall x.state old ∧ (stepCall x.state x.target).isSome then
    x.claimRaised.granted
  else x

/-- The port acting on a newly stored target (Table 1-3). -/
def targetActed (old : Target) (beat : Word) (x : Port) : Port :=
  match x.state with
  | .off => if x.target = .off then x else x.queuedUp beat
  | .queued => if x.target = .off then (x.told .withdrawal).wentOff beat else x
  | .powering | .booting =>
    if x.target = .off then ((x.railCut .cancelled).gaveUp).wentOff beat else x
  | .tuning | .ready | .paused => x.calledAgain old
  | .pausing => (x.waitedFor .paused Config.holdLimitMs).calledAgain old
  | .resuming => (x.waitedFor .awake x.resumeMs).calledAgain old
  | _ => x

/-- The port storing a target (R12). -/
def targetStored (t : Target) (x : Port) : Port :=
  { x with
    waiters := if t = x.target then x.waiters else []
    target := t
    recovery := if x.state = t.goal then 0 else x.recovery }

/-- The port carrying a target set out (R12). -/
def carriedOut (t : TargetSet) (old : Target) (beat : Word) (x : Port) : Port :=
  let y : Port := { x with cut := t.cut }
  { (if t.cut ∧ (x.state = .queued ∨ x.railOn) then y.cutOff beat else y.targetActed old beat) with
    cut := false }

/-- The port with a carried request on its waiter list. -/
def waiterJoined (ref : Option EntryNo) (x : Port) : Port := { x with waiters := x.waiters ++ ref.toList }

/-- The port after a target set that is taken (R12). -/
def targetTaken (t : TargetSet) (ref : Option EntryNo) (stamp beat : Word) (x : Port) : Port :=
  let y := ({ x with stamp := stamp }.targetStored t.target).carriedOut t x.target beat
  if answerTo x t = .waiting then y.waiterJoined ref else y

/-- The port after a profile replacement (Table 5-2). -/
def profileReplaced (list : Profile) (beat : Word) (x : Port) : Port :=
  let y : Port := { x with profile := list }
  match x.state with
  | .tuning =>
    if x.lane.carries .set then { y with stale := true, restart := true }
    else
      (if list = [] then { y with stale := true, cursor := 0 }.tuned beat
        else { y with stale := true, cursor := 0 }.claimRaised).granted
  | .ready =>
    if x.lane.phrase?.isSome then { y with stale := true }
    else ({ y with stale := true }.tuningEntered beat).granted
  | .pausing | .paused | .resuming | .stopping => { y with stale := true }
  | _ => y

/-- The port after its settle time (R21). -/
def booted (beat : Word) (x : Port) : Port :=
  { x.entered .booting beat with
    timer := some x.bootMs, wakePulse := some Config.wakePulseMs, lane := .free }.granted

/-- The port after its boot limit (R22). -/
def bootLimited (beat : Word) (x : Port) : Port :=
  let y : Port := { x with bootAttempts := x.bootAttempts + 1 }
  if x.bootAttempts + 1 < Config.maxBootOrTrip then ((y.railCut .bootRetry).gaveUp).queuedUp beat
  else y.faultEntered .boot beat

/-- The port taking a grant (R20, R3). -/
def grantTaken (beat : Word) (x : Port) : Port :=
  let y : Port := { x with fromGovernor := x.fromGovernor.tail }
  if x.state = .queued then { y.entered .powering beat with timer := some x.settleMs }
  else y.told .returnedGrant

/-- The port taking a trip cut (R34). -/
def tripCutTaken (beat : Word) (x : Port) : Port :=
  let y : Port := { x with fromGovernor := x.fromGovernor.tail }
  if x.state.isWarming then
    let z : Port := { y with tripCount := x.tripCount + 1 }
    if x.tripCount + 1 < Config.maxBootOrTrip then ((z.railCut .tripped).gaveUp).queuedUp beat
    else z.faultEntered .supply beat
  else y

/-- The port taking a beat boundary (R41, R42). -/
def boundaryTaken (p : PortNo) (b : Word) (rest : List Word) (beat : Word) (x : Port) : Port :=
  let y : Port := { x with boundaries := rest }
  match x.classRecord with
  | none => y
  | some c =>
    if x.state.isAlive ∧ isKeepalive p b c.keepalivePeriod.toNat then
      if x.silence < c.lapseLimit.toNat then { y with silence := x.silence + 1, keepDue := true }.granted
      else y.lapsed beat
    else y

end Port

/-! ## Each operation and its mirror -/

variable (p : PortNo) (s : State)

@[simp] theorem enterState_port (st : PState) :
    (enterState p st s).port p = (s.port p).entered st s.cadence.beat := by
  unfold enterState Port.entered; split <;> simp

@[simp] theorem enterState_cadence (st : PState) : (enterState p st s).cadence = s.cadence := by
  unfold enterState; split <;> simp

@[simp] theorem tellGovernor_port (m : GovMsg) : (s.tellGovernor p m).port p = (s.port p).told m := by
  simp [State.tellGovernor, Port.told]

@[simp] theorem tellGovernor_cadence (m : GovMsg) : (s.tellGovernor p m).cadence = s.cadence := rfl

@[simp] theorem reached_port : (reached p s).port p = (s.port p).reachedTarget := by
  simp [reached, Port.reachedTarget]

@[simp] theorem reached_cadence : (reached p s).cadence = s.cadence := by simp [reached]

@[simp] theorem reachIfGoal_port : (reachIfGoal p s).port p = (s.port p).reachedIfGoal := by
  unfold reachIfGoal Port.reachedIfGoal; split <;> simp

@[simp] theorem queueUp_port : (queueUp p s).port p = (s.port p).queuedUp s.cadence.beat := by
  simp [queueUp, Port.queuedUp]

@[simp] theorem entered_target (x : Port) (st : PState) (b : Word) : (x.entered st b).target = x.target := by
  unfold Port.entered; split <;> rfl

@[simp] theorem enterOff_port : (enterOff p s).port p = (s.port p).wentOff s.cadence.beat := by
  unfold enterOff Port.wentOff
  simp only [enterState_port, port_modPort_self, entered_target]
  split <;> simp [Port.countsCleared]

@[simp] theorem abandonLane_port :
    (abandonLane p s).port p = { s.port p with lane := .closed, stepClaim := false } := by
  simp [abandonLane]

@[simp] theorem cutRail_port (why : EndReason) : (cutRail p why s).port p = (s.port p).railCut why := by
  unfold cutRail Port.railCut; split <;> simp

@[simp] theorem cutRail_cadence (why : EndReason) : (cutRail p why s).cadence = s.cadence := by
  unfold cutRail; split <;> simp [abandonLane]

@[simp] theorem giveUpHoldings_port : (giveUpHoldings p s).port p = (s.port p).gaveUp := by
  unfold giveUpHoldings Port.gaveUp; split_ifs <;> simp

@[simp] theorem giveUpHoldings_cadence : (giveUpHoldings p s).cadence = s.cadence := by
  unfold giveUpHoldings; split_ifs <;> simp

@[simp] theorem fault_port (r : FaultReason) :
    (fault p r s).port p = (s.port p).faultEntered r s.cadence.beat := by
  simp [fault, Port.faultEntered]

@[simp] theorem setTimer_port (d : Deadline) : (setTimer p d s).port p = { s.port p with timer := d } := by
  simp [setTimer]

@[simp] theorem setTimer_cadence (d : Deadline) : (setTimer p d s).cadence = s.cadence := rfl

@[simp] theorem raiseClaim_port : (raiseClaim p s).port p = (s.port p).claimRaised := by
  simp [raiseClaim, Port.claimRaised]

@[simp] theorem enterReady_port : (enterReady p s).port p = (s.port p).readied s.cadence.beat := by
  simp [enterReady, Port.readied]

@[simp] theorem finishTuning_port : (finishTuning p s).port p = (s.port p).tuned s.cadence.beat := by
  simp [finishTuning, Port.tuned]

@[simp] theorem entered_profile (x : Port) (st : PState) (b : Word) : (x.entered st b).profile = x.profile := by
  unfold Port.entered; split <;> rfl

@[simp] theorem enterTuning_port : (enterTuning p s).port p = (s.port p).tuningEntered s.cadence.beat := by
  unfold enterTuning Port.tuningEntered
  simp only [enterState_port, entered_profile, port_modPort_self]
  split <;> simp [Port.profileToSend]

@[simp] theorem enterPausing_port : (enterPausing p s).port p = (s.port p).pausingEntered s.cadence.beat := by
  simp [enterPausing, Port.pausingEntered]

@[simp] theorem entered_resumeMs (x : Port) (st : PState) (b : Word) :
    (x.entered st b).resumeMs = x.resumeMs := by
  unfold Port.entered; split <;> rfl

@[simp] theorem enterResuming_port : (enterResuming p s).port p = (s.port p).resumingEntered s.cadence.beat := by
  simp [enterResuming, Port.resumingEntered]

@[simp] theorem enterStopping_port : (enterStopping p s).port p = (s.port p).stoppingEntered s.cadence.beat := by
  simp [enterStopping, Port.stoppingEntered]

@[simp] theorem enterPaused_port : (enterPaused p s).port p = (s.port p).pausedEntered s.cadence.beat := by
  simp [enterPaused, Port.pausedEntered]

@[simp] theorem setDone_port : (setDone p s).port p = (s.port p).setEnded s.cadence.beat := by
  unfold setDone Port.setEnded
  dsimp only
  split_ifs <;> simp

@[simp] theorem applyStep_port (n : PhraseName) (ok : Bool) :
    (applyStep p n ok s).port p = (s.port p).stepEnded n ok s.cadence.beat := by
  cases n <;> cases ok <;> simp [applyStep, Port.stepEnded]

@[simp] theorem keepEnded_port : (keepEnded p s).port p = (s.port p).keepPassed s.cadence.beat := by
  unfold keepEnded Port.keepPassed; split_ifs <;> simp

@[simp] theorem beginAttempt_port (ph : Phrase) :
    (beginAttempt p ph s).port p = { s.port p with lane := .sending ph Config.ackWaitMs } := by
  simp [beginAttempt]

@[simp] theorem grantPoint_port : (grantPoint p s).port p = (s.port p).granted := by
  have hchoose : ∀ x : Port, ({ x with stepClaim := false } : Port).chooseStep = x.chooseStep := fun _ => rfl
  unfold grantPoint Port.granted
  simp only [port_modPort_self, hchoose]
  cases (s.port p).chooseStep <;> split_ifs <;> simp

@[simp] theorem noteExchange_port : (noteExchange p s).port p = (s.port p).exchanged := by
  simp [noteExchange, Port.exchanged]

@[simp] theorem noteExchange_cadence : (noteExchange p s).cadence = s.cadence := rfl

theorem freeLane_port : (s.modPort p fun x => { x with lane := .free }).port p = (s.port p).laneFreed := by
  simp [Port.laneFreed]

@[simp] theorem endPhrase_port (ph : Phrase) (ok : Bool) :
    (endPhrase p ph ok s).port p = (s.port p).phraseEnded ph ok s.cadence.beat := by
  unfold endPhrase Port.phraseEnded
  cases ok <;> split_ifs <;> simp_all [Port.laneFreed]

@[simp] theorem endReception_port (take : State → State) :
    (endReception p take s).port p =
      ((take (noteExchange p (s.modPort p fun x => { x with lane := .free }))).port p).granted := by
  simp [endReception]

@[simp] theorem takeHello_port (c f : Byte) :
    (takeHello p c f s).port p = (s.port p).helloTaken c f s.cadence.beat := by
  unfold takeHello Port.helloTaken
  simp only [port_modPort_self]
  split_ifs <;> simp [bootHello, rebootHello]

@[simp] theorem takeSettled_port : (takeSettled p s).port p = (s.port p).settledTaken s.cadence.beat := by
  unfold takeSettled Port.settledTaken; split_ifs <;> simp

@[simp] theorem takeAwake_port : (takeAwake p s).port p = (s.port p).awakeTaken s.cadence.beat := by
  unfold takeAwake Port.awakeTaken; split_ifs <;> simp

@[simp] theorem drawStamp_port : (s.drawStamp p).port p = { s.port p with stamp := s.stampCounter + 1 } := by
  simp [State.drawStamp, State.port, State.modPort]

@[simp] theorem drawStamp_cadence : (s.drawStamp p).cadence = s.cadence := rfl

@[simp] theorem drawStamp_stampCounter : (s.drawStamp p).stampCounter = s.stampCounter + 1 := rfl

@[simp] theorem cutRail_stampCounter (why : EndReason) : (cutRail p why s).stampCounter = s.stampCounter := by
  unfold cutRail; split <;> simp [abandonLane]

@[simp] theorem takeParting_port :
    (takeParting p s).port p = (s.port p).partingTaken (s.stampCounter + 1) s.cadence.beat := by
  unfold takeParting partAlive Port.partingTaken
  split_ifs <;> simp

@[simp] theorem railCut_recovery (x : Port) (why : EndReason) : (x.railCut why).recovery = x.recovery := by
  unfold Port.railCut; split <;> rfl

@[simp] theorem lapse_port : (lapse p s).port p = (s.port p).lapsed s.cadence.beat := by
  unfold lapse Port.lapsed
  dsimp only
  split_ifs <;> simp

@[simp] theorem cutToOff_port : (cutToOff p s).port p = (s.port p).cutOff s.cadence.beat := by
  simp [cutToOff, Port.cutOff]

@[simp] theorem handJoin_port (ticket : Nat) : (s.handJoin p ticket).port p = (s.port p).joinHanded ticket := by
  simp [State.handJoin, Port.joinHanded]

@[simp] theorem insertPlug_port :
    (insertPlug p s).port p = (s.port p).inserted s.nextTicket s.cadence.beat := by
  simp [insertPlug, Port.inserted]

/-- Port `p` waits in the Reader Queue, and is not being read (R75). -/
def State.waitsForReader (s : State) (p : PortNo) : Bool :=
  decide (p ∈ s.reader.queue) && !s.reader.state.serves p

@[simp] theorem tellReader_port (m : ReaderMsg) :
    (s.tellReader p m).port p = { s.port p with toReader := (s.port p).toReader ++ [m] } := by
  simp [State.tellReader]

@[simp] theorem leaveReader_port :
    (leaveReader p s).port p = (s.port p).readerLeft (s.waitsForReader p) := by
  unfold leaveReader Port.readerLeft State.waitsForReader
  by_cases hst : (s.port p).state = .identifying
  · cases hw : decide (p ∈ s.reader.queue) && !s.reader.state.serves p <;>
      cases hj : (s.port p).joining <;> simp [hst]
  · simp [hst]

@[simp] theorem leaveReader_cadence : (leaveReader p s).cadence = s.cadence := by
  unfold leaveReader
  dsimp only
  split_ifs <;> simp [State.tellReader]

@[simp] theorem cutRail_reader (why : EndReason) : (cutRail p why s).reader = s.reader := by
  unfold cutRail; split <;> simp [abandonLane]

@[simp] theorem giveUpHoldings_reader : (giveUpHoldings p s).reader = s.reader := by
  unfold giveUpHoldings; split_ifs <;> simp [State.tellGovernor]

@[simp] theorem removePlug_port :
    (removePlug p s).port p = (s.port p).removed (s.waitsForReader p) s.cadence.beat := by
  simp [removePlug, Port.removed, State.waitsForReader, Port.countsCleared]

@[simp] theorem clearPort_port (ticket : Nat) :
    (clearPort p ticket s).2.port p = (s.port p).clearTaken ticket s.cadence.beat := by
  unfold clearPort Port.clearTaken
  split <;> simp_all [identifyAgain, Port.identifiedAgain]

@[simp] theorem takeIdResult_port (r : IdResult) :
    (takeIdResult p r s).port p = (s.port p).resultTaken r s.cadence.beat := by
  unfold takeIdResult Port.resultTaken
  cases r <;> split_ifs <;> simp

@[simp] theorem waitFor_port (awaited : Target) (ms : Nat) :
    (waitFor p awaited ms s).port p = (s.port p).waitedFor awaited ms := by
  simp [waitFor, Port.waitedFor]

@[simp] theorem callAgain_port (old : Target) : (callAgain p old s).port p = (s.port p).calledAgain old := by
  unfold callAgain Port.calledAgain
  dsimp only
  split
  · simp
  · rfl

@[simp] theorem actOnTarget_port (old : Target) :
    (actOnTarget p old s).port p = (s.port p).targetActed old s.cadence.beat := by
  unfold actOnTarget Port.targetActed
  cases hst : (s.port p).state <;> simp only <;> (try split_ifs) <;> simp [hst]

@[simp] theorem storeTarget_port (t : Target) : (storeTarget p t s).port p = (s.port p).targetStored t := by
  unfold storeTarget Port.targetStored
  by_cases h : t = (s.port p).target
  · rw [if_pos h, if_pos h, port_modPort_self]
  · rw [if_neg h, if_neg h, port_modPort_self]; simp

@[simp] theorem storeTarget_cadence (t : Target) : (storeTarget p t s).cadence = s.cadence := by
  unfold storeTarget; split_ifs <;> simp

@[simp] theorem carryOut_port (t : TargetSet) (old : Target) :
    (carryOut p t old s).port p = (s.port p).carriedOut t old s.cadence.beat := by
  unfold carryOut Port.carriedOut Port.railOn
  simp only [port_modPort_self]
  split_ifs <;> simp

@[simp] theorem joinWaiters_port (ref : Option EntryNo) :
    (joinWaiters p ref s).port p = (s.port p).waiterJoined ref := by
  cases ref <;> simp [joinWaiters, Port.waiterJoined]

/-- What a target set answers (Table 8-5). -/
@[simp] theorem targetSet_answer (t : TargetSet) (ref : Option EntryNo) :
    (targetSet p t ref s).1 = answerTo (s.port p) t := by
  unfold targetSet; dsimp only; split <;> rfl

/-- A target set that is declined changes nothing (R11). -/
theorem targetSet_declined {t : TargetSet} {o : OutcomeCode} (h : declines (s.port p) t = some o)
    (ref : Option EntryNo) : (targetSet p t ref s).2 = s := by
  unfold targetSet; dsimp only; rw [h]

/-- The state after a target set that is taken, before the posting of the port's slot (R12). -/
def takeTarget (p : PortNo) (t : TargetSet) (ref : Option EntryNo) (s : State) : State :=
  let u := carryOut p t (s.port p).target (storeTarget p t.target (s.drawStamp p))
  if answerTo (s.port p) t = .waiting then joinWaiters p ref u else u

theorem targetSet_taken {t : TargetSet} (h : declines (s.port p) t = none) (ref : Option EntryNo) :
    (targetSet p t ref s).2 = s.atPort p (takeTarget p t ref) := by
  unfold targetSet; dsimp only; rw [h]; rfl

@[simp] theorem takeTarget_port (t : TargetSet) (ref : Option EntryNo) :
    (takeTarget p t ref s).port p =
      (s.port p).targetTaken t ref (s.stampCounter + 1) s.cadence.beat := by
  unfold takeTarget Port.targetTaken
  dsimp only
  split_ifs <;> simp

@[simp] theorem takeReplacement_port (list : Profile) :
    (takeReplacement p list s).port p = (s.port p).profileReplaced list s.cadence.beat := by
  unfold takeReplacement Port.profileReplaced
  simp only [port_modPort_self]
  cases hst : (s.port p).state <;> simp only <;> (try split_ifs) <;> simp [hst]

@[simp] theorem entered_bootMs (x : Port) (st : PState) (b : Word) : (x.entered st b).bootMs = x.bootMs := by
  unfold Port.entered; split <;> rfl

@[simp] theorem entered_settleMs (x : Port) (st : PState) (b : Word) :
    (x.entered st b).settleMs = x.settleMs := by
  unfold Port.entered; split <;> rfl

@[simp] theorem settleDone_port : (settleDone p s).port p = (s.port p).booted s.cadence.beat := by
  have hms : (s.port p).bootMs = (s.port p).bootMs := rfl
  unfold settleDone Port.booted
  simp

@[simp] theorem bootLimitDone_port : (bootLimitDone p s).port p = (s.port p).bootLimited s.cadence.beat := by
  unfold bootLimitDone Port.bootLimited
  simp only [port_modPort_self]
  split_ifs <;> simp

@[simp] theorem takeGrant_port : (takeGrant p s).port p = (s.port p).grantTaken s.cadence.beat := by
  unfold takeGrant Port.grantTaken
  simp only [port_modPort_self]
  split_ifs <;> simp [Port.settleMs]

@[simp] theorem takeTripCut_port : (takeTripCut p s).port p = (s.port p).tripCutTaken s.cadence.beat := by
  unfold takeTripCut Port.tripCutTaken
  simp only [port_modPort_self]
  split_ifs <;> simp

@[simp] theorem takeBoundary_port (b : Word) (rest : List Word) :
    (takeBoundary p b rest s).port p = (s.port p).boundaryTaken p b rest s.cadence.beat := by
  unfold takeBoundary Port.boundaryTaken keepaliveDue
  simp only [port_modPort_self]
  cases hc : (s.port p).classRecord with
  | none => simp [hc]
  | some c => dsimp only; split_ifs <;> simp [hc]

end Sys2Proof.Machine
end

section
/-! Runs of the primitive changes that a port's sequencer and link engine are made of. An invariant of a state is
kept by every operation once the primitives keep it; and what a whole event at a port leaves alone follows from the
run that its body is. -/

set_option Elab.async false

namespace Sys2Proof.Machine

/-- From `s` to `t` by changes of port `p`'s record that keep its waiter list, causes, postings of its slot and wire
acts; and, where `gives` holds, by outcomes given to the waiters of the port. -/
inductive PortRun (p : PortNo) (gives : Bool) (s : State) : State → Prop
  | refl : PortRun p gives s s
  | modPort {t : State} (h : PortRun p gives s t) (f : Port → Port) (hf : ∀ x, (f x).waiters = x.waiters) :
      PortRun p gives s (t.modPort p f)
  | raise {t : State} (h : PortRun p gives s t) (c : Cause) : PortRun p gives s (t.raise c)
  | post {t : State} (h : PortRun p gives s t) : PortRun p gives s (t.post (.port p))
  | emit {t : State} (h : PortRun p gives s t) (a : List WireAct) : PortRun p gives s (t.emit a)
  | giveAll {t : State} (hg : gives = true) (h : PortRun p gives s t) (o : OutcomeCode) :
      PortRun p gives s (t.giveAll p o)

namespace PortRun

variable {p : PortNo} {gives : Bool} {s t u : State}

/-! ## What a run leaves alone -/

theorem portStep (h : PortRun p gives s t) : PortStep p s t := by
  induction h with
  | refl => exact .refl p s
  | modPort _ f _ ih => exact ih.modPort f
  | raise _ c ih => exact ih.raise c
  | post _ ih => exact ih.post
  | emit _ a ih => exact ih.emit a
  | giveAll _ _ o ih => exact ih.giveAll o

theorem reader (h : PortRun p gives s t) : t.reader = s.reader := by
  induction h <;> simp_all

theorem stampCounter (h : PortRun p gives s t) : t.stampCounter = s.stampCounter := by
  induction h <;> simp_all

theorem cadence (h : PortRun p gives s t) : t.cadence = s.cadence := h.portStep.rig.2.1.1

theorem walker (h : PortRun p false s t) : t.walker = s.walker := by
  induction h <;> simp_all

theorem inflight (h : PortRun p false s t) : t.inflight = s.inflight := by
  induction h <;> simp_all

theorem entry (h : PortRun p false s t) (e : EntryNo) : t.entry e = s.entry e := entry_congr h.inflight e

theorem trans (h : PortRun p gives s t) (k : PortRun p gives t u) : PortRun p gives s u := by
  induction k with
  | refl => exact h
  | modPort _ f hf ih => exact ih.modPort f hf
  | raise _ c ih => exact ih.raise c
  | post _ ih => exact ih.post
  | emit _ a ih => exact ih.emit a
  | giveAll hg _ o ih => exact ih.giveAll hg o

/-- A change of the port's record that shows on its face that the waiter list stays. -/
theorem mod {f : Port → Port} (h : PortRun p gives s t)
    (hf : ∀ x, (f x).waiters = x.waiters := by exact fun _ => rfl) : PortRun p gives s (t.modPort p f) :=
  h.modPort f hf

/-! ## The operations that give no outcome -/

theorem tellGovernor (h : PortRun p gives s t) (m : GovMsg) : PortRun p gives s (t.tellGovernor p m) :=
  h.mod

theorem tellReader (h : PortRun p gives s t) (m : ReaderMsg) : PortRun p gives s (t.tellReader p m) :=
  h.mod

theorem handJoin (h : PortRun p gives s t) (ticket : Nat) : PortRun p gives s (t.handJoin p ticket) :=
  h.mod

theorem setTimer (h : PortRun p gives s t) (d : Deadline) : PortRun p gives s (setTimer p d t) :=
  h.mod

theorem enterState (h : PortRun p gives s t) (st : PState) : PortRun p gives s (enterState p st t) := by
  unfold Machine.enterState
  split
  · exact h
  · exact ((h.mod).raise _).post

theorem queueUp (h : PortRun p gives s t) : PortRun p gives s (queueUp p t) := (h.enterState _).tellGovernor _

theorem abandonLane (h : PortRun p gives s t) : PortRun p gives s (abandonLane p t) :=
  (h.mod).emit _

theorem cutRail (h : PortRun p gives s t) (why : EndReason) : PortRun p gives s (cutRail p why t) := by
  unfold Machine.cutRail
  split
  · exact h.abandonLane.mod
  · exact h

theorem giveUpHoldings (h : PortRun p gives s t) : PortRun p gives s (giveUpHoldings p t) := by
  unfold Machine.giveUpHoldings
  split_ifs
  · exact h.tellGovernor _
  · exact h.tellGovernor _
  · exact h

theorem raiseClaim (h : PortRun p gives s t) : PortRun p gives s (raiseClaim p t) := h.mod

theorem enterPausing (h : PortRun p gives s t) : PortRun p gives s (enterPausing p t) :=
  ((h.enterState _).setTimer _).raiseClaim

theorem enterResuming (h : PortRun p gives s t) : PortRun p gives s (enterResuming p t) :=
  ((h.enterState _).setTimer _).raiseClaim

theorem enterStopping (h : PortRun p gives s t) : PortRun p gives s (enterStopping p t) :=
  (h.enterState _).setTimer _

theorem beginAttempt (h : PortRun p gives s t) (ph : Phrase) : PortRun p gives s (beginAttempt p ph t) :=
  (h.mod).emit _

theorem grantPoint (h : PortRun p gives s t) : PortRun p gives s (grantPoint p t) := by
  have hclaim := h.modPort (fun x => { x with stepClaim := false }) fun _ => rfl
  unfold Machine.grantPoint
  dsimp only
  split_ifs
  · exact h.beginAttempt _
  · split
    · exact hclaim.beginAttempt _
    · exact hclaim
  · exact h
  · exact h

theorem noteExchange (h : PortRun p gives s t) : PortRun p gives s (noteExchange p t) :=
  h.modPort _ fun x => by split <;> rfl

theorem freeLane (h : PortRun p gives s t) :
    PortRun p gives s (t.modPort p fun x => { x with lane := .free }) := h.mod

theorem insertPlug (h : PortRun p gives s t) : PortRun p gives s (insertPlug p t) :=
  ((h.mod).enterState _).handJoin _

theorem identifyAgain (h : PortRun p gives s t) (ticket : Nat) : PortRun p gives s (identifyAgain p ticket t) :=
  (h.enterState _).handJoin _

theorem waitFor (h : PortRun p gives s t) (awaited : Target) (ms : Nat) :
    PortRun p gives s (waitFor p awaited ms t) := h.mod

theorem callAgain (h : PortRun p gives s t) (old : Target) : PortRun p gives s (callAgain p old t) := by
  unfold Machine.callAgain
  dsimp only
  split
  · exact h.raiseClaim.grantPoint
  · exact h

theorem settleDone (h : PortRun p gives s t) : PortRun p gives s (settleDone p t) :=
  (((h.enterState _).setTimer _).mod).grantPoint

theorem takeGrant (h : PortRun p gives s t) : PortRun p gives s (takeGrant p t) := by
  unfold Machine.takeGrant
  dsimp only
  split
  · exact ((h.mod).enterState _).setTimer _
  · exact (h.mod).tellGovernor _

theorem sendNext (h : PortRun p gives s t) (ph : Phrase) : PortRun p gives s (sendNext p ph t) :=
  (h.mod).emit _

theorem beginReception (h : PortRun p gives s t) : PortRun p gives s (beginReception p t) :=
  h.mod

theorem clockIn (h : PortRun p gives s t) (rx : RxBuffer) (data : LaneBits) (parity : Bool) :
    PortRun p gives s (clockIn p rx data parity t) := by
  unfold Machine.clockIn
  split
  · exact h.mod.emit _
  · exact h.mod.emit _

theorem discardReception (h : PortRun p gives s t) : PortRun p gives s (discardReception p t) :=
  h.freeLane.grantPoint

/-! ## The operations that may give outcomes -/

theorem reached (h : PortRun p true s t) : PortRun p true s (reached p t) :=
  (h.giveAll rfl _).mod

theorem reachIfGoal (h : PortRun p true s t) : PortRun p true s (reachIfGoal p t) := by
  unfold Machine.reachIfGoal
  split
  · exact h.reached
  · exact h

theorem enterOff (h : PortRun p true s t) : PortRun p true s (enterOff p t) := by
  have hoff := (h.modPort (fun x => { x with bootAttempts := 0, tripCount := 0, recovery := 0 })
    fun _ => rfl).enterState .off
  unfold Machine.enterOff
  dsimp only
  split
  · exact hoff.reached
  · exact hoff.queueUp

theorem fault (h : PortRun p true s t) (r : FaultReason) : PortRun p true s (fault p r t) :=
  (((((h.cutRail _).giveUpHoldings).mod).giveAll rfl _).enterState _).raise _

theorem enterReady (h : PortRun p true s t) : PortRun p true s (enterReady p t) :=
  (h.enterState _).reachIfGoal.raiseClaim

theorem finishTuning (h : PortRun p true s t) : PortRun p true s (finishTuning p t) :=
  (h.mod).enterReady

theorem enterTuning (h : PortRun p true s t) : PortRun p true s (enterTuning p t) := by
  have hin := (h.enterState .tuning).modPort (fun x => { x with cursor := 0, restart := false, stale := true })
    fun _ => rfl
  unfold Machine.enterTuning
  dsimp only
  split
  · exact hin.finishTuning
  · exact hin.raiseClaim

theorem enterPaused (h : PortRun p true s t) : PortRun p true s (enterPaused p t) :=
  (h.enterState _).reachIfGoal.raiseClaim

theorem setDone (h : PortRun p true s t) : PortRun p true s (setDone p t) := by
  unfold Machine.setDone
  dsimp only
  split_ifs
  · exact (h.mod).finishTuning
  · exact (h.mod).raiseClaim
  · exact (h.mod).raiseClaim
  · exact h.finishTuning

theorem applyStep (h : PortRun p true s t) (n : PhraseName) (ok : Bool) :
    PortRun p true s (applyStep p n ok t) := by
  unfold Machine.applyStep
  split
  · exact h
  · exact h.enterStopping
  · exact h.setDone
  · exact h.enterPausing
  · exact h.enterResuming
  · exact h.fault _
  · exact h.fault _
  · exact h.fault _

theorem keepEnded (h : PortRun p true s t) : PortRun p true s (keepEnded p t) := by
  unfold Machine.keepEnded
  split
  · exact h.enterTuning
  · exact h

theorem endPhrase (h : PortRun p true s t) (ph : Phrase) (ok : Bool) : PortRun p true s (endPhrase p ph ok t) := by
  have hx : PortRun p true s
      (if ok then Machine.noteExchange p (t.modPort p fun x => { x with lane := .free })
        else t.modPort p fun x => { x with lane := .free }) := by
    split
    · exact h.freeLane.noteExchange
    · exact h.freeLane
  unfold Machine.endPhrase
  dsimp only
  split
  · exact hx.keepEnded.grantPoint
  · exact (hx.applyStep _ _).grantPoint

theorem endReception {take : State → State} (h : PortRun p gives s t)
    (ht : ∀ v, PortRun p gives v (take v)) : PortRun p gives s (endReception p take t) :=
  (h.freeLane.noteExchange.trans (ht _)).grantPoint

theorem takeHello (h : PortRun p true s t) (c f : Byte) : PortRun p true s (takeHello p c f t) := by
  have hf := h.modPort (fun x => { x with firmware := some f }) fun _ => rfl
  unfold Machine.takeHello
  dsimp only
  split_ifs
  · exact hf.fault _
  · exact ((hf.tellGovernor _).mod).enterTuning
  · exact (hf.mod).enterTuning
  · exact hf

theorem takeSettled (h : PortRun p true s t) : PortRun p true s (takeSettled p t) := by
  unfold Machine.takeSettled
  split
  · exact h.enterPaused
  · exact h

theorem takeAwake (h : PortRun p true s t) : PortRun p true s (takeAwake p t) := by
  unfold Machine.takeAwake
  split_ifs
  · exact h.enterTuning
  · exact h.enterReady
  · exact h

theorem lapse (h : PortRun p true s t) : PortRun p true s (lapse p t) := by
  have hs := h.modPort (fun x => { x with stale := true }) fun _ => rfl
  unfold Machine.lapse
  dsimp only
  split_ifs
  · exact (hs.cutRail _).enterOff
  · exact ((hs.cutRail _).mod).queueUp
  · exact hs.fault _

theorem cutToOff (h : PortRun p true s t) : PortRun p true s (cutToOff p t) :=
  (h.giveUpHoldings.cutRail _).enterOff

theorem clearPort (h : PortRun p true s t) (ticket : Nat) : PortRun p true s (clearPort p ticket t).2 := by
  unfold Machine.clearPort
  split
  · exact h.identifyAgain _
  · exact h.identifyAgain _
  · exact h.enterOff
  · exact h

theorem takeIdResult (h : PortRun p true s t) (r : IdResult) : PortRun p true s (takeIdResult p r t) := by
  unfold Machine.takeIdResult
  split
  · split
    · exact (h.mod).enterOff
    · exact h.fault _
    · exact h.fault _
  · exact h

theorem actOnTarget (h : PortRun p true s t) (old : Target) : PortRun p true s (actOnTarget p old t) := by
  unfold Machine.actOnTarget
  dsimp only
  split
  · split
    · exact h
    · exact h.queueUp
  · split
    · exact (h.tellGovernor _).enterOff
    · exact h
  · split
    · exact ((h.cutRail _).giveUpHoldings).enterOff
    · exact h
  · split
    · exact ((h.cutRail _).giveUpHoldings).enterOff
    · exact h
  · exact h.callAgain _
  · exact h.callAgain _
  · exact h.callAgain _
  · exact (h.waitFor _ _).callAgain _
  · exact (h.waitFor _ _).callAgain _
  · exact h

theorem storeTarget (h : PortRun p true s t) (g : Target) : PortRun p true s (storeTarget p g t) := by
  unfold Machine.storeTarget
  dsimp only
  split
  · exact h.mod
  · exact (h.giveAll rfl _).mod

theorem carryOut (h : PortRun p true s t) (g : TargetSet) (old : Target) :
    PortRun p true s (carryOut p g old t) := by
  have hc := h.modPort (fun x => { x with cut := g.cut }) fun _ => rfl
  unfold Machine.carryOut
  dsimp only
  split
  · exact hc.cutToOff.mod
  · exact (hc.actOnTarget _).mod

theorem takeReplacement (h : PortRun p true s t) (l : Profile) : PortRun p true s (takeReplacement p l t) := by
  have hl := h.modPort (fun x => { x with profile := l }) fun _ => rfl
  have hs := hl.modPort (fun x => { x with stale := true }) fun _ => rfl
  have hc := hl.modPort (fun x => { x with stale := true, cursor := 0 }) fun _ => rfl
  unfold Machine.takeReplacement
  dsimp only
  split
  · split
    · exact hl.mod
    · split
      · exact hc.finishTuning.grantPoint
      · exact hc.raiseClaim.grantPoint
  · split
    · exact hs
    · exact hs.enterTuning.grantPoint
  · exact hs
  · exact hs
  · exact hs
  · exact hs
  · exact hl

theorem bootLimitDone (h : PortRun p true s t) : PortRun p true s (bootLimitDone p t) := by
  have hb := h.modPort (fun x => { x with bootAttempts := x.bootAttempts + 1 }) fun _ => rfl
  unfold Machine.bootLimitDone
  dsimp only
  split
  · exact ((hb.cutRail _).giveUpHoldings).queueUp
  · exact hb.fault _

theorem stopLimitDone (h : PortRun p true s t) : PortRun p true s (stopLimitDone p t) := (h.cutRail _).enterOff

theorem takeTripCut (h : PortRun p true s t) : PortRun p true s (takeTripCut p t) := by
  have hm := h.modPort (fun x => { x with fromGovernor := x.fromGovernor.tail }) fun _ => rfl
  have hc := hm.modPort (fun x => { x with tripCount := x.tripCount + 1 }) fun _ => rfl
  unfold Machine.takeTripCut
  dsimp only
  split_ifs
  · exact ((hc.cutRail _).giveUpHoldings).queueUp
  · exact hc.fault _
  · exact hm

theorem attemptFails (h : PortRun p true s t) (ph : Phrase) : PortRun p true s (attemptFails p ph t) := by
  unfold Machine.attemptFails
  dsimp only
  split
  · exact (h.emit _).mod
  · exact (h.emit _).endPhrase _ _

theorem phraseEndsOk (h : PortRun p true s t) (ph : Phrase) : PortRun p true s (phraseEndsOk p ph t) :=
  (h.emit _).endPhrase _ _

theorem takeBoundary (h : PortRun p true s t) (b : Word) (rest : List Word) :
    PortRun p true s (takeBoundary p b rest t) := by
  have hb := h.modPort (fun x => { x with boundaries := rest }) fun _ => rfl
  unfold Machine.takeBoundary
  dsimp only
  split
  · exact hb
  · split
    · unfold keepaliveDue
      split
      · exact (hb.mod).grantPoint
      · exact hb.lapse
    · exact hb

end PortRun

end Sys2Proof.Machine
end

section
/-! How an event at a port ends on a settled state: what it leaves alone, and where the port, the entries and the
registers of the next state come from. -/

set_option Elab.async false

namespace Sys2Proof.Machine

/-! ## Outcomes given -/

theorem given_given (x : Entry) (p : PortNo) (o : OutcomeCode) : (x.given p o).given p o = x.given p o := by
  simp only [Entry.given, Table.set_set]
  congr 1
  split_ifs <;> simp_all

/-- An outcome given to one waiting entry. -/
theorem giveOutcome_entry (s : State) (e d : EntryNo) (p : PortNo) (o : OutcomeCode) :
    (s.giveOutcome e p o).entry d = if d = e then (s.entry d).map (·.given p o) else s.entry d := by
  unfold State.giveOutcome State.finishEntry State.recordOutcome
  by_cases hd : d = e
  · subst hd
    cases he : s.entry d with
    | none => simp [he]
    | some x =>
      simp only [entry_setEntry, if_true]
      have hg : x.given p o =
          { x with
            outcomes := x.outcomes.set p o, pending := x.pending.set p false
            status := if x.status = .opened ∧ (x.pending.set p false).items.all (!·) then .held else x.status } := rfl
      split
      · rename_i h
        rw [if_pos h] at hg
        simp [State.place, State.entry, hg]
      · rename_i h
        rw [if_neg h] at hg
        simp [State.entry, hg]
  · cases he : s.entry e with
    | none => simp [he, hd]
    | some x =>
      simp only [entry_setEntry, if_true, hd, if_false]
      split <;> simp [State.place, State.entry, Table.get_set, hd]

theorem giveEach_entry (p : PortNo) (o : OutcomeCode) (l : List EntryNo) (s : State) (d : EntryNo) :
    (giveEach p o l s).entry d = if d ∈ l then (s.entry d).map (·.given p o) else s.entry d := by
  induction l generalizing s with
  | nil => simp [giveEach]
  | cons e rest ih =>
    rw [giveEach, ih, giveOutcome_entry]
    by_cases hd : d = e <;> by_cases hr : d ∈ rest <;>
      simp [hd, hr, Option.map_map, Function.comp_def, given_given]

/-- What outcomes given to the waiters of a port do to each entry (R145). -/
def State.entryAfter (s : State) (p : PortNo) (o : OutcomeCode) (e : EntryNo) : Option Entry :=
  if e ∈ (s.port p).waiters then (s.entry e).map (·.given p o) else s.entry e

theorem waitersReceive_iff (p : PortNo) (o : OutcomeCode) (s t : State) :
    WaitersReceive p o s t ↔ ∀ e, t.entry e = s.entryAfter p o e := Iff.rfl

theorem entryAfter_congr {s u : State} {p : PortNo} (o : OutcomeCode) (e : EntryNo)
    (hw : (u.port p).waiters = (s.port p).waiters) (he : u.entry e = s.entry e) :
    u.entryAfter p o e = s.entryAfter p o e := by
  simp [State.entryAfter, hw, he]

theorem entryAfter_of_nil {s : State} {p : PortNo} (o : OutcomeCode) (e : EntryNo) (h : (s.port p).waiters = []) :
    s.entryAfter p o e = s.entry e := by
  simp [State.entryAfter, h]

theorem giveAll_entry (s : State) (p : PortNo) (o : OutcomeCode) (e : EntryNo) :
    (s.giveAll p o).entry e = s.entryAfter p o e := by
  rw [State.giveAll, giveEach_entry]; rfl

/-- An entry is filled or freed by no outcome. -/
theorem entryAfter_isNone (s : State) (p : PortNo) (o : OutcomeCode) (e : EntryNo) :
    (s.entryAfter p o e).isNone = (s.entry e).isNone := by
  unfold State.entryAfter; split <;> simp

/-- An outcome given puts at most the DONE write of the entry on the access list. -/
theorem giveOutcome_accesses (s : State) (e : EntryNo) (p : PortNo) (o : OutcomeCode) :
    ∃ l, (s.giveOutcome e p o).walker = { s.walker with accesses := s.walker.accesses ++ l } := by
  unfold State.giveOutcome State.finishEntry
  split
  · exact ⟨[], by simp⟩
  · split
    · exact ⟨_, by simp [State.place]; rfl⟩
    · exact ⟨[], by simp⟩

theorem giveEach_accesses (p : PortNo) (o : OutcomeCode) (l : List EntryNo) (s : State) :
    ∃ k, (giveEach p o l s).walker = { s.walker with accesses := s.walker.accesses ++ k } := by
  induction l generalizing s with
  | nil => exact ⟨[], by simp [giveEach]⟩
  | cons e rest ih =>
    obtain ⟨k₁, h₁⟩ := giveOutcome_accesses s e p o
    obtain ⟨k₂, h₂⟩ := ih (s.giveOutcome e p o)
    exact ⟨k₁ ++ k₂, by rw [giveEach, h₂, h₁, List.append_assoc]⟩

/-! ## Events that leave the walker to its list -/

/-- The walker has changed by accesses that joined its list alone, and no entry was filled or freed. -/
structure Calm (s u : State) : Prop where
  walker : ∃ l, u.walker = { s.walker with accesses := s.walker.accesses ++ l }
  entries : ∀ e, (u.entry e).isNone = (s.entry e).isNone

theorem Calm.of_boardKept {s u : State} (h : BoardKept s u) : Calm s u :=
  ⟨⟨[], by simp [h.1]⟩, fun e => by rw [entry_congr h.2]⟩

theorem Calm.refl (s : State) : Calm s s := .of_boardKept ⟨rfl, rfl⟩

theorem Calm.trans {s t u : State} (h : Calm s t) (k : Calm t u) : Calm s u := by
  obtain ⟨l₁, h₁⟩ := h.walker
  obtain ⟨l₂, h₂⟩ := k.walker
  exact ⟨⟨l₁ ++ l₂, by rw [h₂, h₁, List.append_assoc]⟩, fun e => (k.entries e).trans (h.entries e)⟩

theorem giveAll_calm (s : State) (p : PortNo) (o : OutcomeCode) : Calm s (s.giveAll p o) := by
  refine ⟨?_, fun e => by rw [giveAll_entry, entryAfter_isNone]⟩
  obtain ⟨l, hl⟩ := giveEach_accesses p o (s.port p).waiters (s.modPort p fun x => { x with waiters := [] })
  exact ⟨l, hl⟩

theorem PortRun.calm {p : PortNo} {gives : Bool} {s t : State} (h : PortRun p gives s t) : Calm s t := by
  induction h with
  | refl => exact .refl s
  | modPort _ f _ ih => exact ih.trans (.of_boardKept ⟨rfl, rfl⟩)
  | raise _ c ih => exact ih.trans (.of_boardKept ⟨rfl, rfl⟩)
  | post _ ih => exact ih.trans (.of_boardKept ⟨by simp, by simp⟩)
  | emit _ a ih => exact ih.trans (.of_boardKept ⟨rfl, rfl⟩)
  | giveAll _ _ o ih => exact ih.trans (giveAll_calm _ _ o)

theorem allNone_congr {s u : State} (h : ∀ e, (u.entry e).isNone = (s.entry e).isNone) :
    u.inflight.items.all (·.isNone) = s.inflight.items.all (·.isNone) := by
  rw [Bool.eq_iff_iff, Table.all_iff, Table.all_iff]
  exact forall_congr' fun e => by rw [← State.entry, ← State.entry, h]

/-- A calm change of a settled state finishes no detach. -/
theorem Calm.finishDetach {s u : State} (hc : Calm s u) (h : s.settled = true) : finishDetach u = u := by
  obtain ⟨l, hl⟩ := hc.walker
  unfold Machine.finishDetach
  rw [allNone_congr hc.entries, hl, if_neg]
  rintro ⟨hd, hn, ha, hcur⟩
  dsimp only at hd hcur
  obtain ⟨ha, -⟩ := List.append_eq_nil_iff.1 ha
  simp [State.settled, hd, hn, ha, hcur] at h

theorem Calm.attached {s u : State} (hc : Calm s u) : u.walker.state.attached = s.walker.state.attached := by
  obtain ⟨l, hl⟩ := hc.walker; rw [hl]

theorem Calm.board {s u : State} (hc : Calm s u) : u.walker.board = s.walker.board := by
  obtain ⟨l, hl⟩ := hc.walker; rw [hl]

theorem beginAccess_walkerKept (u : State) : WalkerKeptButAccesses u (beginAccess u) := by
  unfold beginAccess WalkerKeptButAccesses
  split
  · split <;> rfl
  · rfl

theorem settle_walkerKept {s u : State} (hc : Calm s u) (h : s.settled = true) :
    WalkerKeptButAccesses s (settle u) := by
  have hu : WalkerKeptButAccesses s u := by
    obtain ⟨l, hl⟩ := hc.walker
    unfold WalkerKeptButAccesses; rw [hl]
  have hb := beginAccess_walkerKept (beginSlotWrite (silenceWriter u))
  unfold settle
  rw [hc.finishDetach h]
  refine hu.trans ?_
  unfold WalkerKeptButAccesses at hb ⊢
  rw [hb]
  simp

theorem settle_regs {s u : State} (hc : Calm s u) (h : s.settled = true) : (settle u).regs = u.regs := by
  simp [settle, hc.finishDetach h]

/-- The state `u` with the walker and the entries as they were in `s`. -/
def State.withBoardOf (u s : State) : State := { u with walker := s.walker, inflight := s.inflight }

/-- The Status Writer ends a calm event as it would had the walker and the entries been left alone. -/
theorem settle_writer {s u : State} (hc : Calm s u) (h : s.settled = true) :
    (settle u).writer = (settle (u.withBoardOf s)).writer := by
  have ha := hc.attached
  have hb := hc.board
  rw [settle_writer_of_settled h (t := u.withBoardOf s) rfl rfl]
  simp only [settle, beginAccess_writer, hc.finishDetach h]
  cases hatt : s.walker.state.attached
  · simp [beginSlotWrite, silenceWriter, State.withBoardOf, hatt, ha]
  · simp only [beginSlotWrite, silenceWriter, State.withBoardOf, hatt, ha, hb, if_true]
    cases u.writer.current <;> cases u.writer.posting <;> cases s.walker.board <;> rfl

theorem settle_otherSlots {p : PortNo} {s u : State} (hc : Calm s u) (h : s.settled = true)
    (hp : PortStep p s u) : OtherSlotsKept (.port p) s (settle u) := by
  have hk := onlySlot_of_settled h (t := u.withBoardOf s) rfl rfl (.port p) (hp.writer.imp id And.right)
  intro y hy
  rw [settle_writer hc h]
  exact hk y hy

/-- How an event at port `p` with body `body` ends on the settled state `s`, in the state `t`, when its body makes
`u` of the part. -/
structure PortEventEnds (p : PortNo) (s u t : State) : Prop where
  rig : RigKept s t
  others : OtherPortsKept p s t
  walker : WalkerKeptButAccesses s t
  regsKept : RegsKeptButAttn s t
  slots : OtherSlotsKept (.port p) s t
  port : t.port p = u.port p
  entry : ∀ e, t.entry e = u.entry e
  regs : t.regs = u.regs
  reader : t.reader = u.reader
  stampCounter : t.stampCounter = u.stampCounter
  board : BoardKept s u → BoardKept s t
  posted : portPublished (t.port p) ≠ portPublished (s.port p) → PostedWhileAttached (.port p) s t

theorem quiet_atPort_entry (s : State) (p : PortNo) (f : State → State) (e : EntryNo) :
    (s.atPort p f).entry e = (f s).entry e := entry_congr (by simp) e

theorem Calm.atPort {p : PortNo} {s : State} {f : State → State} (h : Calm s (f s)) : Calm s (s.atPort p f) :=
  h.trans (.of_boardKept ⟨by simp, by simp⟩)

/-- An event at a port whose body touches the port, and the walker's access list at most. -/
theorem portEvent_ends {p : PortNo} {body : State → State} {s : State} (h : s.settled = true)
    (hs : PortStep p s.quiet (body s.quiet)) (hc : Calm s.quiet (body s.quiet)) :
    ∃ t, portEvent p body s = .next t ∧ PortEventEnds p s (body s.quiet) t := by
  have hs' : PortStep p s.quiet (s.quiet.atPort p body) := (PortStep.refl p _).atPort hs
  have hc' : Calm s.quiet (s.quiet.atPort p body) := hc.atPort
  have hq : s.quiet.settled = true := h
  refine ⟨settle (s.quiet.atPort p body), rfl, ?_⟩
  have hregs : (settle (s.quiet.atPort p body)).regs = (body s.quiet).regs := by
    rw [settle_regs hc' hq]; simp
  exact
    { rig := by simpa [RigKept, ClockAndLinesKept, GroupsKept, SupplyKept] using hs.rig
      others := fun q hne => by simpa using hs.others q hne
      walker := show WalkerKeptButAccesses s.quiet _ from settle_walkerKept hc' hq
      regsKept := by unfold RegsKeptButAttn; rw [hregs]; exact hs.regs
      slots := show OtherSlotsKept _ s.quiet _ from settle_otherSlots hc' hq hs'
      port := by simp
      entry := fun e => by rw [settle_entry, quiet_atPort_entry]
      regs := hregs
      reader := by simp
      stampCounter := by simp
      board := fun hb => by
        obtain ⟨hw, -, hi⟩ := settle_of_settled h (t := s.quiet.atPort p body) (by simpa using hb.1)
          (by simpa using hb.2)
        exact ⟨hw, hi⟩
      posted := (PortsPosted.atPort hs).settle }

/-- An event at a port whose body is a run. -/
theorem portEvent_ends_of_run {p : PortNo} {gives : Bool} {body : State → State} {s : State} (h : s.settled = true)
    (hr : PortRun p gives s.quiet (body s.quiet)) :
    ∃ t, portEvent p body s = .next t ∧ PortEventEnds p s (body s.quiet) t ∧ PortAndOutcomes p s t := by
  obtain ⟨t, ht, he⟩ := portEvent_ends h hr.portStep hr.calm
  exact ⟨t, ht, he, he.rig, by rw [he.reader]; exact hr.reader, by rw [he.stampCounter]; exact hr.stampCounter,
    he.walker, he.others, he.regsKept, he.slots⟩

/-- An event that leaves the walker and the entries alone touches the port alone. -/
theorem PortAndOutcomes.onlyPort {p : PortNo} {s t : State} (h : PortAndOutcomes p s t) (hb : BoardKept s t) :
    OnlyPort p s t := by
  obtain ⟨hrig, hreader, hstamp, -, hothers, hregs, hslots⟩ := h
  exact ⟨hrig, hreader, hstamp, hb, hothers, hregs, hslots⟩

/-- An event at a port whose body is a run that gives no outcome. -/
theorem portEvent_ends_of_quietRun {p : PortNo} {body : State → State} {s : State} (h : s.settled = true)
    (hr : PortRun p false s.quiet (body s.quiet)) :
    ∃ t, portEvent p body s = .next t ∧ PortEventEnds p s (body s.quiet) t ∧ OnlyPort p s t := by
  obtain ⟨t, ht, he, hf⟩ := portEvent_ends_of_run h hr
  exact ⟨t, ht, he, hf.onlyPort (he.board ⟨hr.walker, hr.inflight⟩)⟩

/-- A change of state shows in the port's slot. -/
theorem published_ne_of_state {x y : Port} {a b : PState} (hy : y.state = a) (hx : x.state = b)
    (h : a.code ≠ b.code) : portPublished y ≠ portPublished x := fun e => by
  have := (List.cons.inj e).1
  rw [hy, hx] at this
  exact h this

end Sys2Proof.Machine
end

section
/-! What the operations of a port's sequencer do to the entries and the registers, and the records they leave at a
port whose rail was on. -/

set_option Elab.async false

namespace Sys2Proof.Machine

/-! ## Entries -/

section Entries

variable (p : PortNo) (s : State) (e : EntryNo)

@[simp] theorem entry_modPort (f : Port → Port) : (s.modPort p f).entry e = s.entry e := rfl

@[simp] theorem entry_quiet : s.quiet.entry e = s.entry e := rfl

@[simp] theorem entry_raise (c : Cause) : (s.raise c).entry e = s.entry e := rfl

@[simp] theorem entry_emit (a : List WireAct) : (s.emit a).entry e = s.entry e := rfl

@[simp] theorem entry_drawStamp : (s.drawStamp p).entry e = s.entry e := rfl

@[simp] theorem entry_setReader (r : Reader) : (s.setReader r).entry e = s.entry e := rfl

@[simp] theorem tellGovernor_entry (m : GovMsg) : (s.tellGovernor p m).entry e = s.entry e := rfl

@[simp] theorem setTimer_entry (d : Deadline) : (setTimer p d s).entry e = s.entry e := rfl

@[simp] theorem raiseClaim_entry : (raiseClaim p s).entry e = s.entry e := rfl

@[simp] theorem noteExchange_entry : (noteExchange p s).entry e = s.entry e := rfl

@[simp] theorem enterState_entry (st : PState) : (enterState p st s).entry e = s.entry e :=
  (PortRun.refl.enterState st).entry e

@[simp] theorem queueUp_entry : (queueUp p s).entry e = s.entry e := PortRun.refl.queueUp.entry e

@[simp] theorem cutRail_entry (why : EndReason) : (cutRail p why s).entry e = s.entry e :=
  (PortRun.refl.cutRail why).entry e

@[simp] theorem giveUpHoldings_entry : (giveUpHoldings p s).entry e = s.entry e :=
  PortRun.refl.giveUpHoldings.entry e

@[simp] theorem grantPoint_entry : (grantPoint p s).entry e = s.entry e := PortRun.refl.grantPoint.entry e

@[simp] theorem giveAll_entry_simp (o : OutcomeCode) : (s.giveAll p o).entry e = s.entryAfter p o e :=
  giveAll_entry s p o e

@[simp] theorem reached_entry : (reached p s).entry e = s.entryAfter p .reached e := by simp [reached]

theorem reachIfGoal_entry :
    (reachIfGoal p s).entry e =
      if (s.port p).state = (s.port p).target.goal then s.entryAfter p .reached e else s.entry e := by
  unfold reachIfGoal; split <;> simp

@[simp] theorem entered_waiters (x : Port) (st : PState) (b : Word) : (x.entered st b).waiters = x.waiters := by
  unfold Port.entered; split <;> rfl

@[simp] theorem entered_state (x : Port) (st : PState) (b : Word) : (x.entered st b).state = st := by
  unfold Port.entered; split <;> simp_all

@[simp] theorem railCut_waiters (x : Port) (why : EndReason) : (x.railCut why).waiters = x.waiters := by
  unfold Port.railCut; split <;> rfl

@[simp] theorem gaveUp_waiters (x : Port) : x.gaveUp.waiters = x.waiters := by
  unfold Port.gaveUp; split_ifs <;> rfl

@[simp] theorem enterOff_entry :
    (enterOff p s).entry e = if (s.port p).target = .off then s.entryAfter p .reached e else s.entry e := by
  unfold enterOff
  simp only [enterState_port, entered_target, port_modPort_self]
  split
  · rw [reached_entry]
    exact entryAfter_congr _ _ (by simp) (by simp)
  · simp

@[simp] theorem fault_entry (r : FaultReason) : (fault p r s).entry e = s.entryAfter p (.fault r) e := by
  have hu : (fault p r s).entry e =
      ((giveUpHoldings p (cutRail p (.fault r) s)).modPort p fun x =>
        { x with target := .off, endReason := .fault r }).entryAfter p (.fault r) e := by simp [fault]
  rw [hu]
  exact entryAfter_congr _ _ (by simp) (by simp)

theorem goal_awake (t : Target) : PState.ready = t.goal ↔ t = .awake := by cases t <;> simp [Target.goal]

theorem goal_paused (t : Target) : PState.paused = t.goal ↔ t = .paused := by cases t <;> simp [Target.goal]

@[simp] theorem enterReady_entry :
    (enterReady p s).entry e = if (s.port p).target = .awake then s.entryAfter p .reached e else s.entry e := by
  simp only [enterReady, raiseClaim_entry, reachIfGoal_entry, enterState_port, entered_state, entered_target,
    goal_awake, enterState_entry]
  rw [entryAfter_congr (s := s) _ _ (by simp) (by simp)]

@[simp] theorem enterPaused_entry :
    (enterPaused p s).entry e = if (s.port p).target = .paused then s.entryAfter p .reached e else s.entry e := by
  simp only [enterPaused, raiseClaim_entry, reachIfGoal_entry, enterState_port, entered_state, entered_target,
    goal_paused, enterState_entry]
  rw [entryAfter_congr (s := s) _ _ (by simp) (by simp)]

@[simp] theorem finishTuning_entry :
    (finishTuning p s).entry e = if (s.port p).target = .awake then s.entryAfter p .reached e else s.entry e := by
  rw [finishTuning, enterReady_entry, port_modPort_self,
    entryAfter_congr (s := s) _ _ (by simp) (by simp)]
  rfl

@[simp] theorem enterTuning_entry :
    (enterTuning p s).entry e =
      if (s.port p).profile = [] ∧ (s.port p).target = .awake then s.entryAfter p .reached e else s.entry e := by
  unfold enterTuning
  simp only [enterState_port, port_modPort_self, entered_profile]
  by_cases hp : (s.port p).profile = []
  · simp only [hp, if_true, true_and, finishTuning_entry, port_modPort_self, enterState_port, entered_target]
    rw [entryAfter_congr (s := s) _ _ (by simp) (by simp)]
    simp
  · simp [hp]

end Entries

/-! ## Registers -/

section Registers

variable (p : PortNo) (s : State)

/-- The registers with these causes set besides. -/
def Registers.caused (r : Registers) (bits : Word) : Registers := { r with attn := r.attn ||| bits }

theorem causesSet_iff (bits : Word) (s t : State) : CausesSet bits s t ↔ t.regs = s.regs.caused bits := Iff.rfl

@[simp] theorem caused_caused (r : Registers) (a b : Word) : (r.caused a).caused b = r.caused (a ||| b) := by
  simp [Registers.caused, BitVec.or_assoc]

@[simp] theorem enterState_regs (st : PState) :
    (enterState p st s).regs = if (s.port p).state = st then s.regs else s.regs.caused 2 := by
  unfold enterState; split <;> simp [Cause.bit, Registers.caused]

@[simp] theorem tellGovernor_regs (m : GovMsg) : (s.tellGovernor p m).regs = s.regs := rfl

@[simp] theorem setTimer_regs (d : Deadline) : (setTimer p d s).regs = s.regs := rfl

@[simp] theorem raiseClaim_regs : (raiseClaim p s).regs = s.regs := rfl

@[simp] theorem noteExchange_regs : (noteExchange p s).regs = s.regs := rfl

@[simp] theorem drawStamp_regs : (s.drawStamp p).regs = s.regs := rfl

@[simp] theorem reached_regs : (reached p s).regs = s.regs := by simp [reached]

@[simp] theorem reachIfGoal_regs : (reachIfGoal p s).regs = s.regs := by
  unfold reachIfGoal; split <;> simp

@[simp] theorem cutRail_regs (why : EndReason) : (cutRail p why s).regs = s.regs := by
  unfold cutRail; split <;> simp [abandonLane]

@[simp] theorem giveUpHoldings_regs : (giveUpHoldings p s).regs = s.regs := by
  unfold giveUpHoldings; split_ifs <;> simp

@[simp] theorem beginAttempt_regs (ph : Phrase) : (beginAttempt p ph s).regs = s.regs := rfl

@[simp] theorem grantPoint_regs : (grantPoint p s).regs = s.regs := by
  unfold grantPoint
  dsimp only
  split_ifs
  · simp
  · split <;> simp
  · rfl
  · rfl

@[simp] theorem queueUp_regs :
    (queueUp p s).regs = if (s.port p).state = .queued then s.regs else s.regs.caused 2 := by simp [queueUp]

theorem enterOff_regs (h : (s.port p).state ≠ .off) : (enterOff p s).regs = s.regs.caused 2 := by
  unfold enterOff
  dsimp only
  split <;> simp [h]

@[simp] theorem railCut_state (x : Port) (why : EndReason) : (x.railCut why).state = x.state := by
  unfold Port.railCut; split <;> rfl

@[simp] theorem gaveUp_state (x : Port) : x.gaveUp.state = x.state := by
  unfold Port.gaveUp; split_ifs <;> rfl

theorem fault_regs (r : FaultReason) (h : (s.port p).state ≠ .faulted r) :
    (fault p r s).regs = s.regs.caused 6 := by
  have hraise : ∀ u : State, (u.raise .portFault).regs = u.regs.caused 4 := fun _ => rfl
  simp only [fault, hraise, enterState_regs, giveAll_port_self, port_modPort_self, giveUpHoldings_port,
    cutRail_port, gaveUp_state, railCut_state, h, if_false, giveAll_regs, modPort_regs, giveUpHoldings_regs,
    cutRail_regs, caused_caused]
  rfl

@[simp] theorem enterReady_regs :
    (enterReady p s).regs = if (s.port p).state = .ready then s.regs else s.regs.caused 2 := by
  simp [enterReady]

@[simp] theorem enterPaused_regs :
    (enterPaused p s).regs = if (s.port p).state = .paused then s.regs else s.regs.caused 2 := by
  simp [enterPaused]

@[simp] theorem finishTuning_regs :
    (finishTuning p s).regs = if (s.port p).state = .ready then s.regs else s.regs.caused 2 := by
  simp [finishTuning]

@[simp] theorem enterTuning_regs :
    (enterTuning p s).regs =
      if (s.port p).state = .tuning ∧ (s.port p).profile ≠ [] then s.regs else s.regs.caused 2 := by
  unfold enterTuning
  simp only [enterState_port, port_modPort_self, entered_profile]
  by_cases hp : (s.port p).profile = [] <;> by_cases ht : (s.port p).state = .tuning <;> simp [hp, ht]

end Registers

/-! ## Ports whose rail was on -/

namespace Port

/-- The port in a state whose rail is off, with this end reason, from a state whose rail was on (R1, R53). -/
def dark (st : PState) (beat : Word) (why : EndReason) (x : Port) : Port :=
  { x with
    state := st, stateBeat := beat, timer := none, silence := 0, keepDue := false, stepClaim := false
    cursor := 0, restart := false, lane := .closed, wakePulse := none, endReason := why }

variable {x : Port} (beat : Word)

theorem railCut_of_on (why : EndReason) (h : x.railOn = true) :
    x.railCut why = { x with lane := .closed, stepClaim := false, wakePulse := none, endReason := why } := by
  simp [railCut, h]

theorem state_ne_of_railOn {st : PState} (h : x.railOn = true) (hst : st.railOn = false) : x.state ≠ st := by
  rintro rfl
  simp [railOn, hst] at h

/-- A fault of a port whose rail is on (R7). -/
theorem faultEntered_of_on (r : FaultReason) (h : x.railOn = true) :
    x.faultEntered r beat =
      { x.dark (.faulted r) beat (.fault r) with
        target := .off, waiters := []
        toGovernor := x.toGovernor ++ if x.state.isWarming then [.release] else [] } := by
  have hq : x.state ≠ .queued := state_ne_of_railOn h rfl
  have hf : x.state ≠ .faulted r := state_ne_of_railOn h rfl
  cases hw : x.state.isWarming <;>
    simp [faultEntered, railCut_of_on _ h, gaveUp, entered, told, dark, hq, hf, hw, PState.isAlive]

/-- The way to OFF of a port whose rail is cut, and on to QUEUED with a target other than OFF (R19). -/
theorem wentOff_of_on (why : EndReason) (h : x.railOn = true) :
    (x.railCut why).wentOff beat =
      if x.target = .off then
        { x.dark .off beat why with bootAttempts := 0, tripCount := 0, recovery := 0, waiters := [] }
      else
        { x.dark .queued beat why with
          bootAttempts := 0, tripCount := 0, recovery := 0, toGovernor := x.toGovernor ++ [.claim] } := by
  have ho : x.state ≠ .off := state_ne_of_railOn h rfl
  by_cases ht : x.target = .off <;>
    simp [wentOff, railCut_of_on _ h, countsCleared, entered, reachedTarget, queuedUp, told, dark, ht, ho,
      PState.isAlive]

/-- The way back to QUEUED of a warming port, its release before its claim (R22, R34). -/
theorem requeued_of_warming (why : EndReason) (h : x.state.isWarming = true) :
    ((x.railCut why).gaveUp).queuedUp beat =
      { x.dark .queued beat why with toGovernor := x.toGovernor ++ [.release, .claim] } := by
  have hon : x.railOn = true := by
    unfold railOn; cases hs : x.state <;> simp_all [PState.isWarming, PState.railOn]
  have hq : x.state ≠ .queued := state_ne_of_railOn hon rfl
  simp [railCut_of_on _ hon, gaveUp, queuedUp, told, entered, dark, hq, h, PState.isAlive]

end Port

/-! ## Entering FAULTED, OFF and QUEUED -/

section Entering

variable {p : PortNo} {s u t : State}

/-- An event whose body faults a port whose rail is on, with the target, the stamp and the waiters as they were. -/
theorem faultEntered_of_fault {v : State} {r : FaultReason} (he : PortEventEnds p s u t) (hu : u = fault p r v)
    (hon : (v.port p).railOn = true) (hstamp : (v.port p).stamp = (s.port p).stamp)
    (hwait : (v.port p).waiters = (s.port p).waiters) (hentry : ∀ e, v.entry e = s.entry e)
    (hregs : v.regs = s.regs) (hbeat : v.cadence = s.cadence) : FaultEntered p r s t := by
  have hne : (v.port p).state ≠ .faulted r := Port.state_ne_of_railOn hon rfl
  have hport : t.port p = (v.port p).faultEntered r s.cadence.beat := by rw [he.port, hu, fault_port, hbeat]
  rw [Port.faultEntered_of_on _ _ hon] at hport
  refine ⟨by rw [hport]; rfl, by rw [hport]; rfl, by rw [hport], by rw [hport]; exact hstamp, by rw [hport],
    by rw [hport]; exact ⟨rfl, rfl, rfl, rfl, rfl, rfl, rfl, rfl⟩, by rw [hport]; rfl, fun e => ?_, ?_⟩
  · rw [he.entry, hu, fault_entry]
    exact entryAfter_congr _ _ hwait (hentry e)
  · rw [causesSet_iff, he.regs, hu, fault_regs _ _ _ hne, hregs]

/-- An event whose body cuts the rail of a port, which has target OFF, and takes it to OFF. -/
theorem offEntered_of_cut {v : State} {why : EndReason} (he : PortEventEnds p s u t)
    (hu : u = enterOff p (cutRail p why v)) (hon : (v.port p).railOn = true) (htar : (v.port p).target = .off)
    (hwait : (v.port p).waiters = (s.port p).waiters) (hentry : ∀ e, v.entry e = s.entry e)
    (hregs : v.regs = s.regs) (hbeat : v.cadence = s.cadence) : OffEntered p why s t := by
  have hne : (v.port p).state ≠ .off := Port.state_ne_of_railOn hon rfl
  have hport : t.port p = ((v.port p).railCut why).wentOff s.cadence.beat := by
    rw [he.port, hu, enterOff_port, cutRail_port, cutRail_cadence, hbeat]
  rw [Port.wentOff_of_on _ _ hon, if_pos htar] at hport
  refine ⟨by rw [hport]; rfl, by rw [hport]; rfl, by rw [hport]; exact htar, by rw [hport],
    by rw [hport]; exact ⟨rfl, rfl, rfl, rfl, rfl, rfl, rfl, rfl⟩, by rw [hport], by rw [hport], by rw [hport],
    by rw [hport]; rfl, fun e => ?_, ?_⟩
  · have : ((cutRail p why v).port p).target = .off := by simp [Port.railCut_of_on _ hon, htar]
    rw [he.entry, hu, enterOff_entry, if_pos this]
    exact entryAfter_congr _ _ (by simp [hwait]) (by simp [hentry])
  · rw [causesSet_iff, he.regs, hu, enterOff_regs _ _ (by simpa using hne), cutRail_regs, hregs]

end Entering

end Sys2Proof.Machine
end

section
/-! The deadlines of a port, and what the governor hands it (O11, O12, O31, O35). -/

set_option Elab.async false

namespace Sys2Proof.Machine

variable {p : PortNo} {s : State}

/-! ## Settle and wake pulse -/

theorem exec_settleExpiry (hst : (s.port p).state = .powering) (ht : (s.port p).timer = some 0) :
    exec (.settleExpiry p) s = portEvent p (settleDone p) s := by
  simp [exec, execSettleExpiry, timerDue, hst, ht]

theorem exec_wakePulseEnd (h : (s.port p).wakePulse = some 0) :
    exec (.wakePulseEnd p) s =
      portEvent p (fun s => s.modPort p fun x => { x with wakePulse := none }) s := by
  simp [exec, execWakePulseEnd, h]

@[simp] theorem settleDone_regs :
    (settleDone p s).regs = if (s.port p).state = .booting then s.regs else s.regs.caused 2 := by
  simp [settleDone]

/-- A POWERING port whose settle time is over (R21). -/
theorem booted_of_powering {x : Port} {c : ClassRecord} (beat : Word) (hst : x.state = .powering)
    (hc : x.classRecord = some c) :
    x.booted beat =
      { x with
        state := .booting, stateBeat := beat, timer := some (c.bootLimit.toNat * 100)
        wakePulse := some 10, lane := .free, stepClaim := false, silence := 0, keepDue := false
        cursor := 0, restart := false } := by
  simp [Port.booted, Port.entered, Port.granted, hst, hc, PState.isAlive, Port.bootMs, Config.wakePulseMs]

/-- Settles O11: the body of each expiry gives no outcome, and its record is computed. -/
theorem settleExpiryAndWakePulse : Obligations.SettleExpiryAndWakePulse := by
  refine ⟨fun p c s h hst htimer hc => ?_, fun p s h hw => ?_⟩
  · obtain ⟨t, ht, he, honly⟩ := portEvent_ends_of_quietRun h (PortRun.refl.settleDone (p := p))
    have hport : t.port p = (s.port p).booted s.cadence.beat := by rw [he.port]; simp
    have hbooted := hport.trans (booted_of_powering _ hst hc)
    refine ⟨t, (exec_settleExpiry hst htimer).trans ht, honly, ?_, he.posted ?_, ?_, hbooted⟩
    · simp [causesSet_iff, he.regs, hst]
    · exact published_ne_of_state (a := .booting) (by rw [hbooted]) hst (by decide)
    · rw [hbooted]; rfl
  · obtain ⟨t, ht, he, honly⟩ := portEvent_ends_of_quietRun h (p := p)
      (body := fun s => s.modPort p fun x => { x with wakePulse := none }) PortRun.refl.mod
    have hport : t.port p = { s.port p with wakePulse := none } := by rw [he.port]; simp
    exact ⟨t, (exec_wakePulseEnd hw).trans ht, honly, by simp [RegsKept, he.regs], by rw [hport]; rfl, hport⟩

/-! ## Grants -/

theorem exec_grant {rest : List PortMsg} (h : (s.port p).fromGovernor = .grant :: rest) :
    exec (.grant p) s = portEvent p (takeGrant p) s := by
  simp [exec, execGrant, h]

/-- A QUEUED port that takes its grant (R20). -/
theorem grantTaken_of_queued {x : Port} {rest : List PortMsg} {c : ClassRecord} (beat : Word)
    (hst : x.state = .queued) (hm : x.fromGovernor = .grant :: rest) (hc : x.classRecord = some c) :
    x.grantTaken beat =
      { x with
        fromGovernor := rest, state := .powering, stateBeat := beat
        timer := some (c.railSettle.toNat * 10), silence := 0, keepDue := false
        stepClaim := false, cursor := 0, restart := false } := by
  simp [Port.grantTaken, Port.entered, hst, hm, hc, PState.isAlive, Port.settleMs]

theorem takeGrant_regs :
    (takeGrant p s).regs = if (s.port p).state = .queued then s.regs.caused 2 else s.regs := by
  unfold takeGrant
  simp only [port_modPort_self]
  split <;> simp_all

/-- Settles O31: the grant is taken by a body that gives no outcome, in QUEUED and elsewhere. -/
theorem grantPowersAQueuedPort : Obligations.GrantPowersAQueuedPort := by
  intro p rest c s h hm
  obtain ⟨t, ht, he, honly⟩ := portEvent_ends_of_quietRun h (PortRun.refl.takeGrant (p := p))
  have hexec := (exec_grant hm).trans ht
  have hport : t.port p = (s.port p).grantTaken s.cadence.beat := by rw [he.port]; simp
  refine ⟨fun hst hc => ?_, fun hst => ?_⟩
  · have hpowered := hport.trans (grantTaken_of_queued _ hst hm hc)
    refine ⟨t, hexec, honly, ?_, he.posted ?_, by rw [hpowered]; rfl, hpowered⟩
    · simp [causesSet_iff, he.regs, takeGrant_regs, hst]
    · exact published_ne_of_state (a := .powering) (by rw [hpowered]) hst (by decide)
  · refine ⟨t, hexec, honly, by simp [RegsKept, he.regs, takeGrant_regs, hst], ?_⟩
    rw [hport]
    simp [Port.grantTaken, hst, hm, Port.told]

/-! ## Requeues, faults and cuts of a port whose rail is on -/

theorem railOn_of_warming {x : Port} (h : x.state.isWarming = true) : x.railOn = true := by
  unfold Port.railOn; cases hs : x.state <;> simp_all [PState.isWarming, PState.railOn]

theorem railOn_of_alive {x : Port} (h : x.state.isAlive = true) : x.railOn = true := by
  unfold Port.railOn; cases hs : x.state <;> simp_all [PState.isAlive, PState.railOn]

theorem ne_queued_of_warming {x : Port} (h : x.state.isWarming = true) : x.state ≠ .queued := by
  rintro hq; simp [hq, PState.isWarming] at h

theorem not_warming_of_alive {x : Port} (h : x.state.isAlive = true) : x.state.isWarming = false := by
  cases hs : x.state <;> simp_all [PState.isAlive, PState.isWarming]

/-- A change of counts or mail, which leaves what a fault or a cut works on as it is. -/
structure Port.Aside (x y : Port) : Prop where
  state : y.state = x.state
  intent : x.intentKept y
  toGovernor : y.toGovernor = x.toGovernor

theorem Port.Aside.railOn {x y : Port} (h : x.Aside y) : y.railOn = x.railOn := by
  unfold Port.railOn; rw [h.state]

/-- An event that sends a warming port back to QUEUED, its release before its claim (R3). -/
theorem requeue_ends {u t : State} {why : EndReason} {f : Port → Port} (he : PortEventEnds p s u t)
    (hu : u = queueUp p (giveUpHoldings p (cutRail p why (s.quiet.modPort p f))))
    (hf : (s.port p).Aside (f (s.port p))) (hw : (s.port p).state.isWarming = true) :
    t.port p =
        { (f (s.port p)).dark .queued s.cadence.beat why with
          toGovernor := (s.port p).toGovernor ++ [.release, .claim] } ∧
      QueuedEntered p why [.release, .claim] s t := by
  have hw' : (f (s.port p)).state.isWarming = true := by rw [hf.state]; exact hw
  have hport : t.port p =
      { (f (s.port p)).dark .queued s.cadence.beat why with
        toGovernor := (s.port p).toGovernor ++ [.release, .claim] } := by
    rw [he.port, hu]
    simp only [queueUp_port, giveUpHoldings_port, cutRail_port, port_modPort_self, port_quiet,
      giveUpHoldings_cadence, cutRail_cadence, modPort_cadence, quiet_cadence]
    rw [Port.requeued_of_warming _ _ hw', hf.toGovernor]
  have hb : BoardKept s.quiet (queueUp p (giveUpHoldings p (cutRail p why (s.quiet.modPort p f)))) := by
    have hr := (((PortRun.refl (p := p) (gives := false)).cutRail why).giveUpHoldings.queueUp
      (s := s.quiet.modPort p f))
    exact ⟨hr.walker, hr.inflight⟩
  obtain ⟨htarget, hstamp, hwait⟩ := hf.intent
  refine ⟨hport, by rw [hport]; rfl, by rw [hport]; rfl, ?_, ?_, by rw [hport], by rw [hport]; rfl,
    (he.board (by rw [hu]; exact hb)).2, ?_⟩
  · rw [hport]; exact ⟨htarget, hstamp, hwait⟩
  · rw [hport]; exact ⟨rfl, rfl, rfl, rfl, rfl, rfl, rfl, rfl⟩
  · rw [causesSet_iff, he.regs, hu]
    simp [hf.state, ne_queued_of_warming hw]

/-- An event that faults a port whose rail is on (R7). -/
theorem fault_ends {u t : State} {r : FaultReason} {f : Port → Port} (he : PortEventEnds p s u t)
    (hu : u = fault p r (s.quiet.modPort p f)) (hf : (s.port p).Aside (f (s.port p)))
    (hon : (s.port p).railOn = true) :
    t.port p =
        { (f (s.port p)).dark (.faulted r) s.cadence.beat (.fault r) with
          target := .off, waiters := []
          toGovernor := (s.port p).toGovernor ++ if (s.port p).state.isWarming then [.release] else [] } ∧
      FaultEntered p r s t := by
  have hon' : (f (s.port p)).railOn = true := by rw [hf.railOn]; exact hon
  obtain ⟨-, hstamp, hwait⟩ := hf.intent
  refine ⟨?_, faultEntered_of_fault he hu ?_ ?_ ?_ (fun _ => rfl) rfl rfl⟩
  · rw [he.port, hu, fault_port, port_modPort_self, port_quiet, Port.faultEntered_of_on _ _ hon', hf.toGovernor,
      hf.state]
    rfl
  · simpa using hon'
  · simpa using hstamp
  · simpa using hwait

/-! ## Trip cuts -/

theorem modPort_modPort (f g : Port → Port) : (s.modPort p f).modPort p g = s.modPort p fun x => g (f x) := by
  simp [State.modPort, State.port, Table.set_set]

theorem modPort_id (s : State) : s.modPort p id = s := by simp [State.modPort, State.port]

theorem exec_tripCut {rest : List PortMsg} (h : (s.port p).fromGovernor = .tripCut :: rest) :
    exec (.tripCut p) s = portEvent p (takeTripCut p) s := by
  simp [exec, execTripCut, h]

/-- The port with a trip cut taken and counted. -/
def Port.cutCounted (x : Port) : Port :=
  { x with fromGovernor := x.fromGovernor.tail, tripCount := x.tripCount + 1 }

theorem cutCounted_aside (x : Port) : x.Aside x.cutCounted := ⟨rfl, ⟨rfl, rfl, rfl⟩, rfl⟩

/-- A trip cut, by whether the port is warming and by its trip count (R34). -/
theorem takeTripCut_eq :
    takeTripCut p s =
      if (s.port p).state.isWarming then
        if (s.port p).tripCount < 2 then
          queueUp p (giveUpHoldings p (cutRail p .tripped (s.modPort p Port.cutCounted)))
        else fault p .supply (s.modPort p Port.cutCounted)
      else s.modPort p fun x => { x with fromGovernor := x.fromGovernor.tail } := by
  unfold takeTripCut
  simp only [port_modPort_self, modPort_modPort, Config.maxBootOrTrip,
    show ((s.port p).tripCount + 1 < 3) = ((s.port p).tripCount < 2) by simp; omega]
  rfl

/-- Settles O35: by whether the port is warming, and by its trip count. -/
theorem tripCutRequeuesTwice : Obligations.TripCutRequeuesTwice := by
  intro p rest s h hm
  obtain ⟨t, ht, he, hframe⟩ := portEvent_ends_of_run h (PortRun.refl.takeTripCut (p := p))
  have hexec := (exec_tripCut hm).trans ht
  have hu := takeTripCut_eq (p := p) (s := s.quiet)
  rw [port_quiet] at hu
  have haside := cutCounted_aside (s.port p)
  cases hw : (s.port p).state.isWarming with
  | false =>
    rw [hw, if_neg Bool.false_ne_true] at hu
    have hport : t.port p = { s.port p with fromGovernor := rest } := by
      rw [he.port, hu]; simp [hm]
    refine ⟨t, hexec, hframe, by rw [hport], fun _ => ⟨?_, ?_, hport⟩, fun hc => by simp at hc⟩
    · rw [RegsKept, he.regs, hu]; rfl
    · exact he.board (by rw [hu]; exact ⟨rfl, rfl⟩)
  | true =>
    rw [hw, if_pos rfl] at hu
    by_cases hc : (s.port p).tripCount < 2
    · rw [if_pos hc] at hu
      obtain ⟨hport, hqueued⟩ := requeue_ends he hu haside hw
      refine ⟨t, hexec, hframe, by rw [hport]; simp [Port.dark, Port.cutCounted, hm], fun hf => by simp at hf,
        fun _ => ⟨?_, ?_, ?_, ?_, ?_, by rw [if_pos hc]; exact hqueued⟩⟩ <;> rw [hport]
      · exact ⟨rfl, rfl, rfl, rfl, rfl, rfl⟩
      all_goals rfl
    · rw [if_neg hc] at hu
      obtain ⟨hport, hfaulted⟩ := fault_ends he hu haside (railOn_of_warming hw)
      rw [hw, if_pos rfl] at hport
      refine ⟨t, hexec, hframe, by rw [hport]; simp [Port.dark, Port.cutCounted, hm], fun hf => by simp at hf,
        fun _ => ⟨?_, ?_, ?_, ?_, ?_, by rw [if_neg hc]; exact ⟨hfaulted, by rw [hport]⟩⟩⟩ <;> rw [hport]
      · exact ⟨rfl, rfl, rfl, rfl, rfl, rfl⟩
      all_goals rfl

/-! ## The limits of BOOTING, PAUSING, RESUMING and STOPPING -/

theorem exec_bootLimitExpiry (hst : (s.port p).state = .booting) (ht : (s.port p).timer = some 0) :
    exec (.bootLimitExpiry p) s = portEvent p (bootLimitDone p) s := by
  simp [exec, execBootLimitExpiry, timerDue, hst, ht]

theorem exec_holdLimitExpiry (hst : (s.port p).state = .pausing) (ht : (s.port p).timer = some 0) :
    exec (.holdLimitExpiry p) s = portEvent p (fault p .hold) s := by
  simp [exec, execHoldLimitExpiry, timerDue, hst, ht]

theorem exec_resumeLimitExpiry (hst : (s.port p).state = .resuming) (ht : (s.port p).timer = some 0) :
    exec (.resumeLimitExpiry p) s = portEvent p (fault p .resume) s := by
  simp [exec, execResumeLimitExpiry, timerDue, hst, ht]

theorem exec_stopLimitExpiry (hst : (s.port p).state = .stopping) (ht : (s.port p).timer = some 0) :
    exec (.stopLimitExpiry p) s = portEvent p (stopLimitDone p) s := by
  simp [exec, execStopLimitExpiry, timerDue, hst, ht]

/-- The port with a boot-limit expiry counted. -/
def Port.bootCounted (x : Port) : Port := { x with bootAttempts := x.bootAttempts + 1 }

theorem bootCounted_aside (x : Port) : x.Aside x.bootCounted := ⟨rfl, ⟨rfl, rfl, rfl⟩, rfl⟩

/-- A boot-limit expiry, by the boot attempts before it (R22). -/
theorem bootLimitDone_eq :
    bootLimitDone p s =
      if (s.port p).bootAttempts < 2 then
        queueUp p (giveUpHoldings p (cutRail p .bootRetry (s.modPort p Port.bootCounted)))
      else fault p .boot (s.modPort p Port.bootCounted) := by
  unfold bootLimitDone
  simp only [port_modPort_self, Config.maxBootOrTrip,
    show ((s.port p).bootAttempts + 1 < 3) = ((s.port p).bootAttempts < 2) by simp; omega]
  rfl

/-- BOOT_LIMIT_EXPIRY (R22). -/
theorem bootLimitExpiry_retriesOrFaults (h : s.settled = true) (hst : (s.port p).state = .booting)
    (htimer : (s.port p).timer = some 0) :
    ∃ t, exec (.bootLimitExpiry p) s = .next t ∧ PortAndOutcomes p s t ∧
      (s.port p).cableKept (t.port p) ∧ (s.port p).mailKept (t.port p) ∧
      (t.port p).stale = (s.port p).stale ∧ (t.port p).bootAttempts = (s.port p).bootAttempts + 1 ∧
      (t.port p).tripCount = (s.port p).tripCount ∧ (t.port p).recovery = (s.port p).recovery ∧
      (if (s.port p).bootAttempts < 2 then QueuedEntered p .bootRetry [.release, .claim] s t
        else FaultEntered p .boot s t ∧ (t.port p).toGovernor = (s.port p).toGovernor ++ [.release]) := by
  obtain ⟨t, ht, he, hframe⟩ := portEvent_ends_of_run h (PortRun.refl.bootLimitDone (p := p))
  have hexec := (exec_bootLimitExpiry hst htimer).trans ht
  have hu := bootLimitDone_eq (p := p) (s := s.quiet)
  rw [port_quiet] at hu
  have haside := bootCounted_aside (s.port p)
  have hw : (s.port p).state.isWarming = true := by rw [hst]; rfl
  by_cases hc : (s.port p).bootAttempts < 2
  · rw [if_pos hc] at hu
    obtain ⟨hport, hqueued⟩ := requeue_ends he hu haside hw
    refine ⟨t, hexec, hframe, ?_, ?_, ?_, ?_, ?_, ?_, by rw [if_pos hc]; exact hqueued⟩ <;> rw [hport]
    · exact ⟨rfl, rfl, rfl, rfl, rfl, rfl⟩
    · exact ⟨rfl, rfl, rfl, rfl, rfl, rfl, rfl⟩
    all_goals rfl
  · rw [if_neg hc] at hu
    obtain ⟨hport, hfaulted⟩ := fault_ends he hu haside (railOn_of_warming hw)
    rw [hw, if_pos rfl] at hport
    refine ⟨t, hexec, hframe, ?_, ?_, ?_, ?_, ?_, ?_, by rw [if_neg hc]; exact ⟨hfaulted, by rw [hport]⟩⟩ <;>
      rw [hport]
    · exact ⟨rfl, rfl, rfl, rfl, rfl, rfl⟩
    · exact ⟨rfl, rfl, rfl, rfl, rfl, rfl, rfl⟩
    all_goals rfl

/-- The fault of a port in an alive state, as an event of its own (R7). -/
theorem fault_of_alive {c : Instr} {r : FaultReason} (h : s.settled = true)
    (hexec : exec c s = portEvent p (fault p r) s) (ha : (s.port p).state.isAlive = true) :
    ∃ t, exec c s = .next t ∧ FaultEntered p r s t ∧ PortAndOutcomes p s t ∧ (s.port p).cableKept (t.port p) ∧
      (s.port p).mailKept (t.port p) ∧ (s.port p).countsKept (t.port p) ∧
      (t.port p).stale = (s.port p).stale ∧ (t.port p).toGovernor = (s.port p).toGovernor := by
  obtain ⟨t, ht, he, hframe⟩ := portEvent_ends_of_run h ((PortRun.refl (p := p)).fault r)
  obtain ⟨hport, hfaulted⟩ := fault_ends he (f := id) (by rw [modPort_id]) ⟨rfl, ⟨rfl, rfl, rfl⟩, rfl⟩ (railOn_of_alive ha)
  rw [not_warming_of_alive ha] at hport
  refine ⟨t, hexec.trans ht, hfaulted, hframe, ?_, ?_, ?_, ?_, ?_⟩ <;> rw [hport]
  · exact ⟨rfl, rfl, rfl, rfl, rfl, rfl⟩
  · exact ⟨rfl, rfl, rfl, rfl, rfl, rfl, rfl⟩
  · exact ⟨rfl, rfl, rfl⟩
  · rfl
  · simp

/-- The way to OFF gives no outcome at a port with another target (R19). -/
theorem enterOff_boardKept (h : (s.port p).target ≠ .off) : BoardKept s (enterOff p s) := by
  have hr := (PortRun.refl (p := p) (gives := false) (s := s)).mod
    (f := fun x => { x with bootAttempts := 0, tripCount := 0, recovery := 0 }) |>.enterState .off |>.queueUp
  unfold enterOff
  dsimp only
  rw [if_neg (by simpa using h)]
  exact ⟨hr.walker, hr.inflight⟩

/-- An event that cuts the rail of a port and takes it to OFF, and on to QUEUED with another target (R19). -/
theorem cutToOff_ends {u t : State} {why : EndReason} {f : Port → Port} (he : PortEventEnds p s u t)
    (hu : u = enterOff p (cutRail p why (s.quiet.modPort p f))) (hf : (s.port p).Aside (f (s.port p)))
    (hon : (s.port p).railOn = true) :
    ((s.port p).target = .off →
        t.port p =
            { (f (s.port p)).dark .off s.cadence.beat why with
              bootAttempts := 0, tripCount := 0, recovery := 0, waiters := [] } ∧
          OffEntered p why s t) ∧
      ((s.port p).target ≠ .off →
        t.port p =
            { (f (s.port p)).dark .queued s.cadence.beat why with
              bootAttempts := 0, tripCount := 0, recovery := 0
              toGovernor := (s.port p).toGovernor ++ [.claim] } ∧
          QueuedEntered p why [.claim] s t) := by
  have hon' : (f (s.port p)).railOn = true := by rw [hf.railOn]; exact hon
  obtain ⟨htarget, hstamp, hwait⟩ := hf.intent
  have hport : t.port p = ((f (s.port p)).railCut why).wentOff s.cadence.beat := by
    rw [he.port, hu]; simp
  rw [Port.wentOff_of_on _ _ hon', htarget] at hport
  refine ⟨fun htar => ?_, fun htar => ?_⟩
  · rw [if_pos htar] at hport
    refine ⟨hport, offEntered_of_cut he hu ?_ ?_ ?_ (fun _ => rfl) rfl rfl⟩
    · simpa using hon'
    · simpa using htarget.trans htar
    · simpa using hwait
  · rw [if_neg htar, hf.toGovernor] at hport
    have hne : (f (s.port p)).state ≠ .off := Port.state_ne_of_railOn hon' rfl
    have hcut := (PortRun.refl (p := p) (gives := false) (s := s.quiet.modPort p f)).cutRail why
    have hoff : BoardKept (cutRail p why (s.quiet.modPort p f)) u := by
      rw [hu]
      exact enterOff_boardKept (by simpa [Port.railCut_of_on _ hon', htarget] using htar)
    refine ⟨hport, by rw [hport]; rfl, by rw [hport]; rfl, ?_, ?_, by rw [hport], by rw [hport]; rfl,
      (he.board ⟨hoff.1.trans hcut.walker, hoff.2.trans hcut.inflight⟩).2, ?_⟩
    · rw [hport]; exact ⟨htarget, hstamp, hwait⟩
    · rw [hport]; exact ⟨rfl, rfl, rfl, rfl, rfl, rfl, rfl, rfl⟩
    · rw [causesSet_iff, he.regs, hu, enterOff_regs _ _ (by simpa using hne)]
      simp

/-- STOP_LIMIT_EXPIRY (R28, R19). -/
theorem stopLimitExpiry_stops (h : s.settled = true) (hst : (s.port p).state = .stopping)
    (htimer : (s.port p).timer = some 0) :
    ∃ t, exec (.stopLimitExpiry p) s = .next t ∧ PortAndOutcomes p s t ∧
      (s.port p).cableKept (t.port p) ∧ (s.port p).mailKept (t.port p) ∧
      (t.port p).stale = (s.port p).stale ∧ (t.port p).stamp = (s.port p).stamp ∧
      (t.port p).bootAttempts = 0 ∧ (t.port p).tripCount = 0 ∧ (t.port p).recovery = 0 ∧
      (if (s.port p).target = .off then
          OffEntered p .stopLimit s t ∧ (t.port p).toGovernor = (s.port p).toGovernor
        else QueuedEntered p .stopLimit [.claim] s t) := by
  obtain ⟨t, ht, he, hframe⟩ := portEvent_ends_of_run h (PortRun.refl.stopLimitDone (p := p))
  obtain ⟨hoff, hqueued⟩ := cutToOff_ends he (f := id) (by rw [modPort_id]; rfl) ⟨rfl, ⟨rfl, rfl, rfl⟩, rfl⟩
    (by unfold Port.railOn; rw [hst]; rfl)
  have hexec := (exec_stopLimitExpiry hst htimer).trans ht
  by_cases htar : (s.port p).target = .off
  · obtain ⟨hport, hentered⟩ := hoff htar
    refine ⟨t, hexec, hframe, ?_, ?_, ?_, ?_, ?_, ?_, ?_, by rw [if_pos htar]; exact ⟨hentered, by rw [hport]; rfl⟩⟩ <;>
      rw [hport]
    · exact ⟨rfl, rfl, rfl, rfl, rfl, rfl⟩
    · exact ⟨rfl, rfl, rfl, rfl, rfl, rfl, rfl⟩
    all_goals rfl
  · obtain ⟨hport, hentered⟩ := hqueued htar
    refine ⟨t, hexec, hframe, ?_, ?_, ?_, ?_, ?_, ?_, ?_, by rw [if_neg htar]; exact hentered⟩ <;> rw [hport]
    · exact ⟨rfl, rfl, rfl, rfl, rfl, rfl⟩
    · exact ⟨rfl, rfl, rfl, rfl, rfl, rfl, rfl⟩
    all_goals rfl

/-- Settles O12, each limit by its own lemma. -/
theorem portTimerExpiriesRetryFaultOrStop : Obligations.PortTimerExpiriesRetryFaultOrStop :=
  ⟨fun _ _ h hst htimer => bootLimitExpiry_retriesOrFaults h hst htimer,
    fun _ _ h htimer =>
      ⟨fun hst => fault_of_alive h (exec_holdLimitExpiry hst htimer) (by rw [hst]; rfl),
        fun hst => fault_of_alive h (exec_resumeLimitExpiry hst htimer) (by rw [hst]; rfl)⟩,
    fun _ _ h hst htimer => stopLimitExpiry_stops h hst htimer⟩

end Sys2Proof.Machine
end

section
/-! The phrases of a camera: HELLO, SETTLED, AWAKE and PARTING (O19, O20, O21). -/

set_option Elab.async false

namespace Sys2Proof.Machine

variable {p : PortNo} {s : State}

/-! ## A phrase heard -/

theorem heard_of_receiving {x : Port} {rx : RxBuffer} {ph : CameraPhrase} (hl : x.lane = .receiving rx)
    (hc : rx.count < 6) (hj : judgePhrase rx = some ph) : x.heard = .phrase ph := by
  simp [Port.heard, hl, Config.receiveLimit, hc, hj]

/-- The port at the end of a reception, before the sequencer takes the phrase (R56). -/
def Port.endOfReception (x : Port) : Port := x.laneFreed.exchanged

/-- A camera phrase is taken by the port as the end of its reception leaves it. -/
theorem endReception_eq (take : State → State) :
    endReception p take s = grantPoint p (take (s.modPort p Port.endOfReception)) := by
  have : noteExchange p (s.modPort p fun x => { x with lane := .free }) = s.modPort p Port.endOfReception :=
    modPort_modPort _ _
  rw [endReception, this]

@[simp] theorem endOfReception_state (x : Port) : x.endOfReception.state = x.state := by
  unfold Port.endOfReception Port.exchanged Port.laneFreed; split <;> rfl

theorem endOfReception_of_alive {x : Port} (h : x.state.isAlive = true) :
    x.endOfReception = { x with lane := .free, silence := 0, keepDue := false } := by
  simp [Port.endOfReception, Port.exchanged, Port.laneFreed, h]

theorem endOfReception_of_not_alive {x : Port} (h : x.state.isAlive = false) :
    x.endOfReception = { x with lane := .free } := by
  simp [Port.endOfReception, Port.exchanged, Port.laneFreed, h]

theorem endOfReception_aside (x : Port) : x.Aside x.endOfReception := by
  unfold Port.endOfReception Port.exchanged Port.laneFreed
  split <;> exact ⟨rfl, ⟨rfl, rfl, rfl⟩, rfl⟩

theorem entryAfter_endOfReception (o : OutcomeCode) (e : EntryNo) :
    (s.quiet.modPort p Port.endOfReception).entryAfter p o e = s.entryAfter p o e :=
  entryAfter_congr _ _ (by simpa using (endOfReception_aside (s.port p)).intent.2.2) rfl

/-- A port whose lane is not FREE is at no grant point (R61). -/
theorem grantPoint_of_not_free (h : (s.port p).lane ≠ .free) : grantPoint p s = s := by
  simp [grantPoint, h]

theorem granted_of_not_free {x : Port} (h : x.lane ≠ .free) : x.granted = x := by simp [Port.granted, h]

theorem inflight_of_entries {t : State} (h : ∀ e, t.entry e = s.entry e) : t.inflight = s.inflight :=
  Table.ext_get h

/-! ## Entering TUNING and READY at a free lane -/

section Tuning

variable {x : Port} (beat : Word)

/-- TUNING entered at a free lane with a profile to send (R81). -/
theorem tuningEntered_granted {e : ProfileEntry} {es : Profile} (hl : x.lane = .free) (hk : x.keepDue = false)
    (hs : x.silence = 0) (ht : x.state = .tuning → x.timer = none) (hp : x.profile = e :: es) :
    (x.tuningEntered beat).granted = x.nowTuning beat e := by
  by_cases hst : x.state = .tuning <;> cases htar : x.target <;>
    simp [Port.tuningEntered, Port.profileToSend, Port.entered, Port.claimRaised, Port.granted, Port.chooseStep,
      Port.stepPayload, stepCall, Port.nowTuning, Port.tuningLane, ProfileEntry.payload, Config.ackWaitMs,
      PState.isAlive, hl, hk, hs, hp, hst, htar] <;>
    simp_all

/-- READY entered at a free lane (R24). -/
theorem readied_granted (hl : x.lane = .free) (hk : x.keepDue = false) (hs : x.silence = 0)
    (hst : x.state ≠ .ready) (hstale : x.stale = false) : (x.readied beat).granted = x.nowReady beat := by
  cases htar : x.target <;> cases hc : x.stepClaim <;>
    simp [Port.readied, Port.entered, Port.reachedIfGoal, Port.reachedTarget, Target.goal, Port.claimRaised,
      Port.granted, Port.chooseStep, Port.stepPayload, stepCall, Port.nowReady, Config.ackWaitMs,
      PState.isAlive, hl, hk, hs, hst, hstale, htar, hc]

/-- TUNING entered with no profile, and left for READY in the event (R81). -/
theorem tuningEntered_granted_nil (hl : x.lane = .free) (hk : x.keepDue = false) (hs : x.silence = 0)
    (hp : x.profile = []) : (x.tuningEntered beat).granted = x.nowReady beat := by
  have hready : ({ x.profileToSend beat with stale := false, cursor := 0, restart := false } : Port).nowReady beat =
      x.nowReady beat := by
    by_cases hst : x.state = .tuning <;>
      simp [Port.profileToSend, Port.entered, Port.nowReady, hst]
  rw [Port.tuningEntered, if_pos hp, Port.tuned, readied_granted, hready] <;>
    by_cases hst : x.state = .tuning <;>
      simp [Port.profileToSend, Port.entered, PState.isAlive, hst, hl, hk, hs]

/-- A phrase that the sequencer ignores, in an alive state: the exchange counts (R59). -/
theorem endOfReception_granted_of_alive (h : x.state.isAlive = true) :
    x.endOfReception.granted =
      { x with
        silence := 0, keepDue := false, stepClaim := false
        lane := { x with keepDue := false }.laneAtGrant } := by
  rw [endOfReception_of_alive h]
  have hchoose : ∀ l n k c, ({ x with lane := l, silence := n, keepDue := k, stepClaim := c } : Port).chooseStep =
      x.chooseStep := fun _ _ _ _ => rfl
  cases hc : x.stepClaim <;> cases hph : x.chooseStep <;>
    simp [Port.granted, Port.laneAtGrant, hchoose, hph, Config.ackWaitMs]

/-- A phrase that the sequencer ignores, in a state that is not alive. -/
theorem endOfReception_granted_of_not_alive (h : x.state.isAlive = false) (hk : x.keepDue = false)
    (hc : x.stepClaim = false) : x.endOfReception.granted = { x with lane := .free } := by
  rw [endOfReception_of_not_alive h]
  simp [Port.granted, hk, hc]

end Tuning

theorem PortRun.enterTuning_of_profile {gives : Bool} {t : State} (h : PortRun p gives s t)
    (hp : (t.port p).profile ≠ []) : PortRun p gives s (Machine.enterTuning p t) := by
  unfold Machine.enterTuning
  simp only [port_modPort_self, enterState_port, entered_profile, hp, if_false]
  exact ((h.enterState _).mod).raiseClaim

/-! ## Phrases that the sequencer ignores -/

/-- A phrase that the sequencer ignores ends the reception and does nothing else. -/
theorem phrase_ignored {take : State → State} {t : State} (hf : PortAndOutcomes p s t)
    (he : PortEventEnds p s (endReception p take s.quiet) t)
    (hi : take (s.quiet.modPort p Port.endOfReception) = s.quiet.modPort p Port.endOfReception) :
    OnlyPort p s t ∧ RegsKept s t ∧ t.port p = (s.port p).endOfReception.granted := by
  rw [endReception_eq, hi] at he
  have hr := ((PortRun.refl (p := p) (gives := false) (s := s.quiet)).modPort Port.endOfReception
    fun x => (endOfReception_aside x).intent.2.2).grantPoint
  exact ⟨hf.onlyPort (he.board ⟨hr.walker, hr.inflight⟩), by simp [RegsKept, he.regs], by simp [he.port]⟩

/-! ## READY and TUNING entered -/

/-- A body that ends in READY, from a port `y` that shows what `x` does but for what READY sets. -/
theorem readyEntered_of {x : Port} {t : State} (hregs : CausesSet 2 s t)
    (hport : t.port p = x.nowReady s.cadence.beat)
    (hentry : ∀ e, t.entry e = if x.target = .awake then s.entryAfter p .reached e else s.entry e) :
    ReadyEntered p x s t := by
  refine ⟨hregs, hport, ?_⟩
  split <;> rename_i ht
  · exact fun e => by rw [hentry, if_pos ht]; rfl
  · exact inflight_of_entries fun e => by rw [hentry, if_neg ht]

/-! ## SETTLED -/

theorem exec_settled {rx : RxBuffer} (hl : (s.port p).lane = .receiving rx) (hc : rx.count < 6)
    (hj : judgePhrase rx = some .settled) : exec (.settled p) s = portEvent p (endReception p (takeSettled p)) s := by
  simp [exec, execSettled, heard_of_receiving hl hc hj]

/-- A PAUSING port that hears SETTLED (R25, R26). -/
theorem pausedEntered_granted {x : Port} (beat : Word) (hst : x.state = .pausing) :
    (x.endOfReception.pausedEntered beat).granted =
      { x with
        state := .paused, stateBeat := beat, timer := none, silence := 0
        keepDue := false, stepClaim := false, cursor := 0, restart := false
        waiters := if x.target = .paused then [] else x.waiters
        recovery := if x.target = .paused then 0 else x.recovery
        lane := match x.target with
          | .paused => .free
          | .awake => .sending (newPhrase .release []) 2
          | .off => .sending (newPhrase .halt []) 2 } := by
  rw [endOfReception_of_alive (by rw [hst]; rfl)]
  cases htar : x.target <;> cases hc : x.stepClaim <;>
    simp [Port.pausedEntered, Port.entered, Port.reachedIfGoal, Port.reachedTarget, Target.goal, Port.claimRaised,
      Port.granted, Port.chooseStep, Port.stepPayload, stepCall, Config.ackWaitMs, PState.isAlive, hst]

theorem settled_movesThePort (rx : RxBuffer) (h : s.settled = true) (hl : (s.port p).lane = .receiving rx)
    (hc : rx.count < 6) (hj : judgePhrase rx = some .settled) :
    let x := s.port p
    ∃ t, exec (.settled p) s = .next t ∧ PortAndOutcomes p s t ∧
      (x.state = .pausing →
        CausesSet 0x02 s t ∧
          (if x.target = .paused then WaitersReceive p .reached s t else t.inflight = s.inflight) ∧
          t.port p =
            { x with
              state := .paused, stateBeat := s.cadence.beat, timer := none, silence := 0
              keepDue := false, stepClaim := false, cursor := 0, restart := false
              waiters := if x.target = .paused then [] else x.waiters
              recovery := if x.target = .paused then 0 else x.recovery
              lane := match x.target with
                | .paused => .free
                | .awake => .sending (newPhrase .release []) 2
                | .off => .sending (newPhrase .halt []) 2 }) ∧
      (x.state ≠ .pausing → x.state.isAlive = true →
        OnlyPort p s t ∧ RegsKept s t ∧
          t.port p =
            { x with
              silence := 0, keepDue := false, stepClaim := false
              lane := { x with keepDue := false }.laneAtGrant }) ∧
      (x.state = .booting ∨ x.state = .stopping → x.keepDue = false → x.stepClaim = false →
        OnlyPort p s t ∧ RegsKept s t ∧ t.port p = { x with lane := .free }) := by
  intro x
  obtain ⟨t, ht, he, hf⟩ := portEvent_ends_of_run h
    ((PortRun.refl (p := p)).endReception fun _ => PortRun.refl.takeSettled)
  have hignored : x.state ≠ .pausing →
      OnlyPort p s t ∧ RegsKept s t ∧ t.port p = x.endOfReception.granted := fun hne =>
    phrase_ignored hf he (by unfold takeSettled; rw [if_neg (by simpa using hne)])
  refine ⟨t, (exec_settled hl hc hj).trans ht, hf, fun hst => ?_, fun hne ha => ?_, fun hst hk hs => ?_⟩
  · have htake : takeSettled p (s.quiet.modPort p Port.endOfReception) =
        enterPaused p (s.quiet.modPort p Port.endOfReception) := by
      unfold takeSettled; rw [if_pos (by simpa using hst)]
    rw [endReception_eq, htake] at he
    have hentry : ∀ e, t.entry e = if x.target = .paused then s.entryAfter p .reached e else s.entry e := fun e => by
      have haside := endOfReception_aside x
      rw [he.entry, grantPoint_entry, enterPaused_entry, port_modPort_self, port_quiet, haside.intent.1,
        entryAfter_endOfReception]
      rfl
    refine ⟨?_, ?_, ?_⟩
    · rw [causesSet_iff, he.regs]
      simp [show (s.port p).state = .pausing from hst]
    · split <;> rename_i htar
      · exact fun e => by rw [hentry, if_pos htar]; rfl
      · exact inflight_of_entries fun e => by rw [hentry, if_neg htar]
    · rw [he.port, ← pausedEntered_granted _ hst]
      simp [x]
  · obtain ⟨honly, hregs, hport⟩ := hignored hne
    exact ⟨honly, hregs, hport.trans (endOfReception_granted_of_alive ha)⟩
  · have hna : x.state.isAlive = false := by rcases hst with hst | hst <;> rw [hst] <;> rfl
    obtain ⟨honly, hregs, hport⟩ := hignored (by rcases hst with hst | hst <;> rw [hst] <;> decide)
    exact ⟨honly, hregs, hport.trans (endOfReception_granted_of_not_alive hna hk hs)⟩

/-! ## AWAKE -/

theorem exec_awake {rx : RxBuffer} (hl : (s.port p).lane = .receiving rx) (hc : rx.count < 6)
    (hj : judgePhrase rx = some .awake) : exec (.awake p) s = portEvent p (endReception p (takeAwake p)) s := by
  simp [exec, execAwake, heard_of_receiving hl hc hj]

theorem awake_movesThePort (rx : RxBuffer) (h : s.settled = true) (hl : (s.port p).lane = .receiving rx)
    (hc : rx.count < 6) (hj : judgePhrase rx = some .awake) :
    let x := s.port p
    ∃ t, exec (.awake p) s = .next t ∧ PortAndOutcomes p s t ∧
      (x.state = .resuming → x.stale = false ∨ x.profile = [] → ReadyEntered p x s t) ∧
      (∀ e es, x.state = .resuming → x.stale = true → x.profile = e :: es →
        CausesSet 0x02 s t ∧ OnlyPort p s t ∧ t.port p = x.nowTuning s.cadence.beat e) ∧
      (x.state ≠ .resuming → x.state.isAlive = true →
        OnlyPort p s t ∧ RegsKept s t ∧
          t.port p =
            { x with
              silence := 0, keepDue := false, stepClaim := false
              lane := { x with keepDue := false }.laneAtGrant }) ∧
      (x.state = .booting ∨ x.state = .stopping → x.keepDue = false → x.stepClaim = false →
        OnlyPort p s t ∧ RegsKept s t ∧ t.port p = { x with lane := .free }) := by
  intro x
  obtain ⟨t, ht, he, hf⟩ := portEvent_ends_of_run h
    ((PortRun.refl (p := p)).endReception fun _ => PortRun.refl.takeAwake)
  have hignored : x.state ≠ .resuming →
      OnlyPort p s t ∧ RegsKept s t ∧ t.port p = x.endOfReception.granted := fun hne =>
    phrase_ignored hf he (by unfold takeAwake; rw [if_neg (by simpa using hne)])
  have hend : x.state = .resuming → x.endOfReception = { x with lane := .free, silence := 0, keepDue := false } :=
    fun hst => endOfReception_of_alive (by rw [hst]; rfl)
  have haside := endOfReception_aside x
  refine ⟨t, (exec_awake hl hc hj).trans ht, hf, fun hst hready => ?_, fun e es hst hstale hp => ?_,
    fun hne ha => ?_, fun hst hk hs => ?_⟩
  · by_cases hstale : x.stale = true
    · have hp : x.profile = [] := hready.resolve_left (by simp [hstale])
      have htake : takeAwake p (s.quiet.modPort p Port.endOfReception) =
          enterTuning p (s.quiet.modPort p Port.endOfReception) := by
        unfold takeAwake
        rw [if_pos (by simpa using hst), if_pos (by simp [show s.port p = x from rfl, hend hst, hstale])]
      rw [endReception_eq, htake] at he
      refine readyEntered_of ?_ ?_ fun e => ?_
      · rw [causesSet_iff, he.regs]
        simp [show (s.port p).state = .resuming from hst]
      · rw [he.port, grantPoint_port, enterTuning_port, port_modPort_self, port_quiet,
          tuningEntered_granted_nil] <;> simp [show s.port p = x from rfl, hend hst, hp, Port.nowReady]
      · rw [he.entry, grantPoint_entry, enterTuning_entry, port_modPort_self, port_quiet, haside.intent.1,
          entryAfter_endOfReception]
        simp [show s.port p = x from rfl, hend hst, hp]
    · have hstale : x.stale = false := by simpa using hstale
      have htake : takeAwake p (s.quiet.modPort p Port.endOfReception) =
          enterReady p (s.quiet.modPort p Port.endOfReception) := by
        unfold takeAwake
        rw [if_pos (by simpa using hst), if_neg (by simp [show s.port p = x from rfl, hend hst, hstale])]
      rw [endReception_eq, htake] at he
      refine readyEntered_of ?_ ?_ fun e => ?_
      · rw [causesSet_iff, he.regs]
        simp [show (s.port p).state = .resuming from hst]
      · rw [he.port, grantPoint_port, enterReady_port, port_modPort_self, port_quiet, readied_granted] <;>
          simp [show s.port p = x from rfl, hend hst, hst, hstale, Port.nowReady]
      · rw [he.entry, grantPoint_entry, enterReady_entry, port_modPort_self, port_quiet, haside.intent.1,
          entryAfter_endOfReception]
        rfl
  · have htake : takeAwake p (s.quiet.modPort p Port.endOfReception) =
        enterTuning p (s.quiet.modPort p Port.endOfReception) := by
      unfold takeAwake
      rw [if_pos (by simpa using hst), if_pos (by simp [show s.port p = x from rfl, hend hst, hstale])]
    rw [endReception_eq, htake] at he
    have hprofile : (((s.quiet.modPort p Port.endOfReception).port p).profile) ≠ [] := by
      simp [show s.port p = x from rfl, hend hst, hp]
    have hr := (((PortRun.refl (p := p) (gives := false) (s := s.quiet)).modPort Port.endOfReception
      fun x => (endOfReception_aside x).intent.2.2).enterTuning_of_profile hprofile).grantPoint
    refine ⟨?_, hf.onlyPort (he.board ⟨hr.walker, hr.inflight⟩), ?_⟩
    · rw [causesSet_iff, he.regs]
      simp [show (s.port p).state = .resuming from hst]
    · rw [he.port, grantPoint_port, enterTuning_port, port_modPort_self, port_quiet, tuningEntered_granted
        (e := e) (es := es)] <;>
        simp [show s.port p = x from rfl, hend hst, hp, hst, Port.nowTuning, Port.tuningLane]
  · obtain ⟨honly, hregs, hport⟩ := hignored hne
    exact ⟨honly, hregs, hport.trans (endOfReception_granted_of_alive ha)⟩
  · have hna : x.state.isAlive = false := by rcases hst with hst | hst <;> rw [hst] <;> rfl
    obtain ⟨honly, hregs, hport⟩ := hignored (by rcases hst with hst | hst <;> rw [hst] <;> decide)
    exact ⟨honly, hregs, hport.trans (endOfReception_granted_of_not_alive hna hk hs)⟩

/-- Settles O20, each phrase by its own lemma. -/
theorem settledAndAwakeMoveThePort : Obligations.SettledAndAwakeMoveThePort :=
  ⟨fun _ rx _ h hl hc hj => settled_movesThePort rx h hl hc hj,
    fun _ rx _ h hl hc hj => awake_movesThePort rx h hl hc hj⟩

end Sys2Proof.Machine
end

section
/-! The invariant of one port, clause by clause (R1, R2, R4, R9, R18, R22, R32, R34, R51, R54, R62, R82, R84). -/

set_option Elab.async false

namespace Sys2Proof.Machine

/-- What `Port.sound` says, as propositions with a name each. -/
structure Port.Good (x : Port) : Prop where
  lane : x.lane = .closed ↔ x.state.laneOpen = false
  pulse : x.state.railOn = false → x.wakePulse = none
  untimed : x.state.mayTime = false → x.timer = none
  timed : x.state.alwaysTimed = true → x.timer.isSome = true
  still : x.state.isAlive = false → x.silence = 0 ∧ x.keepDue = false ∧ x.stepClaim = false
  plugged : x.plugged = (x.state != .empty)
  record : x.classRecord.isNone = x.state.noRecord
  resting : x.state.targetIsOff = true → x.target = .off ∧ x.waiters = []
  cut : x.cut = false
  reason : ∀ r, x.state = .faulted r → x.endReason = .fault r
  attempts :
    if x.state.isFaulted && !x.state.noRecord then x.bootAttempts ≤ 3 ∧ x.tripCount ≤ 3
    else x.bootAttempts ≤ 2 ∧ x.tripCount ≤ 2
  recovery : x.recovery ≤ 2
  silence : x.silence ≤ x.classRecord.elim 0 (·.lapseLimit.toNat)
  tuning :
    if x.state = .tuning then
      if x.restart then x.lane.carries .set = true else x.cursor < x.profile.length
    else x.cursor = 0 ∧ x.restart = false
  phrase : ∀ ph, x.lane.phrase? = some ph →
    ph.name.sentIn x.state = true ∧ 1 ≤ ph.attempt ∧ ph.attempt ≤ x.lane.lastAttempt ∧ ph.next < ph.symbols.length

theorem wiresSound_iff (x : Port) :
    x.wiresSound = true ↔
      (x.lane = .closed ↔ x.state.laneOpen = false) ∧ (x.state.railOn = false → x.wakePulse = none) ∧
        (x.state.mayTime = false → x.timer = none) ∧ (x.state.alwaysTimed = true → x.timer.isSome = true) ∧
        (x.state.isAlive = false → x.silence = 0 ∧ x.keepDue = false ∧ x.stepClaim = false) := by
  have hlane : ((x.lane == .closed) == !x.state.laneOpen) = true ↔ (x.lane = .closed ↔ x.state.laneOpen = false) := by
    cases hl : x.state.laneOpen <;> by_cases hc : x.lane = .closed <;> simp [hc]
  unfold Port.wiresSound
  simp only [Bool.and_eq_true, hlane, and_assoc]
  cases x.state.railOn <;> cases x.state.mayTime <;> cases x.state.alwaysTimed <;> cases x.state.isAlive <;>
    simp [and_assoc]

theorem recordSound_iff (x : Port) :
    x.recordSound = true ↔
      x.plugged = (x.state != .empty) ∧ x.classRecord.isNone = x.state.noRecord ∧
        (x.state.targetIsOff = true → x.target = .off ∧ x.waiters = []) ∧ x.cut = false ∧
        ∀ r, x.state = .faulted r → x.endReason = .fault r := by
  unfold Port.recordSound
  cases hst : x.state <;> simp [and_assoc, PState.targetIsOff]

theorem countsSound_iff (x : Port) :
    x.countsSound = true ↔
      (if x.state.isFaulted && !x.state.noRecord then x.bootAttempts ≤ 3 ∧ x.tripCount ≤ 3
        else x.bootAttempts ≤ 2 ∧ x.tripCount ≤ 2) ∧
        x.recovery ≤ 2 ∧ x.silence ≤ x.classRecord.elim 0 (·.lapseLimit.toNat) := by
  unfold Port.countsSound
  split <;> simp [and_assoc]

theorem tuningSound_iff (x : Port) :
    x.tuningSound = true ↔
      if x.state = .tuning then
        if x.restart then x.lane.carries .set = true else x.cursor < x.profile.length
      else x.cursor = 0 ∧ x.restart = false := by
  unfold Port.tuningSound
  split_ifs <;> simp

theorem phraseSound_iff (x : Port) :
    x.phraseSound = true ↔ ∀ ph, x.lane.phrase? = some ph →
      ph.name.sentIn x.state = true ∧ 1 ≤ ph.attempt ∧ ph.attempt ≤ x.lane.lastAttempt ∧
        ph.next < ph.symbols.length := by
  unfold Port.phraseSound
  cases x.lane.phrase? <;> simp [and_assoc]

/-- The invariant of a port is its clauses. -/
theorem sound_iff (x : Port) : x.sound = true ↔ x.Good := by
  rw [Port.sound, Bool.and_eq_true, Bool.and_eq_true, Bool.and_eq_true, Bool.and_eq_true, wiresSound_iff,
    recordSound_iff, countsSound_iff, tuningSound_iff, phraseSound_iff]
  constructor
  · rintro ⟨⟨⟨⟨⟨h1, h2, h3, h4, h5⟩, h6, h7, h8, h9, h10⟩, h11, h12, h13⟩, h14⟩, h15⟩
    exact ⟨h1, h2, h3, h4, h5, h6, h7, h8, h9, h10, h11, h12, h13, h14, h15⟩
  · rintro ⟨h1, h2, h3, h4, h5, h6, h7, h8, h9, h10, h11, h12, h13, h14, h15⟩
    exact ⟨⟨⟨⟨⟨h1, h2, h3, h4, h5⟩, h6, h7, h8, h9, h10⟩, h11, h12, h13⟩, h14⟩, h15⟩

/-- The invariant of the ports, port by port. -/
theorem portsSound_iff (s : State) : s.portsSound = true ↔ ∀ p, (s.port p).Good := by
  rw [State.portsSound, Table.all_iff]
  exact forall_congr' fun p => sound_iff _

/-- A sound port that hears its camera has its lane open. -/
theorem Port.Good.laneOpen {x : Port} (h : x.Good) (hl : x.lane ≠ .closed) : x.state.laneOpen = true := by
  by_contra hc
  exact hl (h.lane.2 (by simpa using hc))

theorem railOn_of_laneOpen {x : Port} (h : x.state.laneOpen = true) : x.railOn = true := by
  unfold Port.railOn; cases hs : x.state <;> simp_all [PState.laneOpen, PState.railOn]

end Sys2Proof.Machine
end

section
/-! HELLO (O19). -/

set_option Elab.async false

namespace Sys2Proof.Machine

variable {p : PortNo} {s : State}

theorem exec_hello {rx : RxBuffer} {c f : Byte} (hl : (s.port p).lane = .receiving rx) (hc : rx.count < 6)
    (hj : judgePhrase rx = some (.hello c f)) :
    exec (.hello p) s = portEvent p (endReception p (takeHello p c f)) s := by
  simp [exec, execHello, heard_of_receiving hl hc hj]

/-- The port with the firmware level of its camera (R58). -/
def Port.firmwareSet (f : Byte) (x : Port) : Port := { x with firmware := some f }

/-- The port at the end of a reception that brought a firmware level (R58). -/
def Port.firmwareHeard (f : Byte) (x : Port) : Port := x.endOfReception.firmwareSet f

theorem firmwareHeard_aside (f : Byte) (x : Port) : x.Aside (x.firmwareHeard f) := by
  obtain ⟨hst, ⟨hta, hsta, hw⟩, hg⟩ := endOfReception_aside x
  exact ⟨hst, ⟨hta, hsta, hw⟩, hg⟩

/-- The port as a valid HELLO in BOOTING leaves it, before it enters TUNING (R22). -/
def Port.bootHeard (x : Port) : Port := { x.told .release with silence := 0, bootAttempts := 0, tripCount := 0 }

/-- The port as a valid HELLO in an alive state leaves it, before it enters TUNING (R31). -/
def Port.rebootHeard (x : Port) : Port :=
  { x with
    timer := none, silence := 0, keepDue := false, stale := true, bootAttempts := 0
    tripCount := 0, stepClaim := false }

/-- A valid HELLO at a port that holds a record of its class. -/
theorem takeHello_eq {r : ClassRecord} (c f : Byte) (hr : (s.port p).classRecord = some r) :
    takeHello p c f s =
      if c ≠ r.classCode then fault p .mismatch (s.modPort p (Port.firmwareSet f))
      else if (s.port p).state = .booting then
        enterTuning p (s.modPort p fun x => (x.firmwareSet f).bootHeard)
      else if (s.port p).state.isAlive then
        enterTuning p (s.modPort p fun x => (x.firmwareSet f).rebootHeard)
      else s.modPort p (Port.firmwareSet f) := by
  have hclass : ((s.port p).classRecord.map (·.classCode) ≠ some c) = (c ≠ r.classCode) := by
    simp [hr, eq_comm]
  unfold takeHello
  simp only [port_modPort_self, hclass]
  split_ifs
  · rfl
  · rw [bootHello, State.tellGovernor, modPort_modPort, modPort_modPort]; rfl
  · rw [rebootHello, modPort_modPort]; rfl
  · rfl

theorem endOfReception_classRecord (x : Port) : x.endOfReception.classRecord = x.classRecord := by
  unfold Port.endOfReception Port.exchanged Port.laneFreed; split <;> rfl

/-- The body of a HELLO at a port that holds a record of its class. -/
theorem endReception_takeHello {r : ClassRecord} (c f : Byte) (hr : (s.port p).classRecord = some r) :
    endReception p (takeHello p c f) s =
      grantPoint p
        (if c ≠ r.classCode then fault p .mismatch (s.modPort p (Port.firmwareHeard f))
        else if (s.port p).state = .booting then
          enterTuning p (s.modPort p fun x => (x.firmwareHeard f).bootHeard)
        else if (s.port p).state.isAlive then
          enterTuning p (s.modPort p fun x => (x.firmwareHeard f).rebootHeard)
        else s.modPort p (Port.firmwareHeard f)) := by
  rw [endReception_eq, takeHello_eq c f (r := r) (by simp [endOfReception_classRecord, hr])]
  simp only [modPort_modPort, port_modPort_self, endOfReception_state]
  simp only [show Port.firmwareHeard f = fun x => x.endOfReception.firmwareSet f from rfl]

theorem fault_lane_closed {v : State} (r : FaultReason) (hon : (v.port p).railOn = true) :
    ((fault p r v).port p).lane ≠ .free := by
  rw [fault_port, Port.faultEntered_of_on _ _ hon]
  exact Lane.noConfusion

/-- The port that a valid HELLO of its class finds, but for what TUNING and READY set. -/
def Port.heardOf (f : Byte) (x : Port) : Port :=
  { x with
    firmware := some f, bootAttempts := 0, tripCount := 0
    toGovernor := x.toGovernor ++ (if x.state = .booting then [.release] else []) }

/-- The port that a HELLO of its class leaves for TUNING, in BOOTING or an alive state. -/
def Port.tunable (f : Byte) (x : Port) : Port :=
  if x.state = .booting then (x.firmwareHeard f).bootHeard else (x.firmwareHeard f).rebootHeard

/-- What TUNING needs of it. -/
theorem tunable_ready {x : Port} (f : Byte) (hx : x.Good) (hst : x.state = .booting ∨ x.state.isAlive = true) :
    (x.tunable f).lane = .free ∧ (x.tunable f).keepDue = false ∧ (x.tunable f).silence = 0 ∧
      ((x.tunable f).state = .tuning → (x.tunable f).timer = none) ∧ (x.tunable f).profile = x.profile ∧
      (x.tunable f).target = x.target ∧ (x.tunable f).waiters = x.waiters ∧ (x.tunable f).state = x.state := by
  rcases hst with hb | ha
  · have hna : x.state.isAlive = false := by rw [hb]; rfl
    obtain ⟨-, hk, -⟩ := hx.still hna
    simp [Port.tunable, Port.firmwareHeard, Port.firmwareSet, endOfReception_of_not_alive hna, Port.bootHeard, Port.told, hb, hk]
  · have hnb : x.state ≠ .booting := by rintro hb; rw [hb] at ha; cases ha
    simp [Port.tunable, Port.firmwareHeard, Port.firmwareSet, endOfReception_of_alive ha, Port.rebootHeard, hnb]

theorem tunable_nowTuning {x : Port} (f : Byte) (beat : Word) (e : ProfileEntry)
    (hst : x.state = .booting ∨ x.state.isAlive = true) :
    (x.tunable f).nowTuning beat e = (x.heardOf f).nowTuning beat e := by
  rcases hst with hb | ha
  · simp [Port.tunable, Port.heardOf, Port.firmwareHeard, Port.firmwareSet, endOfReception_of_not_alive (x := x) (by rw [hb]; rfl),
      Port.bootHeard, Port.told, Port.nowTuning, Port.tuningLane, hb]
  · have hnb : x.state ≠ .booting := by rintro hb; rw [hb] at ha; cases ha
    simp [Port.tunable, Port.heardOf, Port.firmwareHeard, Port.firmwareSet, endOfReception_of_alive ha, Port.rebootHeard, hnb,
      Port.nowTuning, Port.tuningLane]

theorem tunable_nowReady {x : Port} (f : Byte) (beat : Word)
    (hst : x.state = .booting ∨ x.state.isAlive = true) :
    (x.tunable f).nowReady beat = (x.heardOf f).nowReady beat := by
  rcases hst with hb | ha
  · simp [Port.tunable, Port.heardOf, Port.firmwareHeard, Port.firmwareSet, endOfReception_of_not_alive (x := x) (by rw [hb]; rfl),
      Port.bootHeard, Port.told, Port.nowReady, hb]
  · have hnb : x.state ≠ .booting := by rintro hb; rw [hb] at ha; cases ha
    simp [Port.tunable, Port.heardOf, Port.firmwareHeard, Port.firmwareSet, endOfReception_of_alive ha, Port.rebootHeard, hnb,
      Port.nowReady]

/-- The body of a HELLO of the port's class, in BOOTING or an alive state. -/
theorem endReception_takeHello_match {r : ClassRecord} (f : Byte) (hr : (s.port p).classRecord = some r)
    (hst : (s.port p).state = .booting ∨ (s.port p).state.isAlive = true) :
    endReception p (takeHello p r.classCode f) s =
      grantPoint p (enterTuning p (s.modPort p (Port.tunable f))) := by
  rw [endReception_takeHello _ _ hr, if_neg (by simp)]
  by_cases hb : (s.port p).state = .booting
  · rw [if_pos hb]
    simp [State.modPort, Port.tunable, hb]
  · rw [if_neg hb, if_pos (hst.resolve_left hb)]
    simp [State.modPort, Port.tunable, hb]

theorem tunable_waiters (f : Byte) (x : Port) : (x.tunable f).waiters = x.waiters := by
  have hf := (firmwareHeard_aside f x).intent.2.2
  unfold Port.tunable Port.bootHeard Port.rebootHeard Port.told
  split <;> exact hf

theorem entryAfter_tunable (f : Byte) (o : OutcomeCode) (e : EntryNo) :
    (s.quiet.modPort p (Port.tunable f)).entryAfter p o e = s.entryAfter p o e :=
  entryAfter_congr _ _ (by simp [tunable_waiters]) rfl

/-- A sound port that hears its camera is BOOTING, alive or STOPPING. -/
theorem Port.Good.hearing {x : Port} {rx : RxBuffer} (h : x.Good) (hl : x.lane = .receiving rx) :
    x.state = .booting ∨ x.state.isAlive = true ∨ x.state = .stopping := by
  have hopen := h.laneOpen (by rw [hl]; exact Lane.noConfusion)
  cases hs : x.state <;> simp_all [PState.laneOpen, PState.isAlive]

section Hello

variable {t : State} {code fw : Byte} {c : ClassRecord}

/-- HELLO of another class (R22, R31). -/
theorem hello_mismatch (hclass : (s.port p).classRecord = some c)
    (hhear : (s.port p).state = .booting ∨ (s.port p).state.isAlive = true ∨ (s.port p).state = .stopping)
    (he : PortEventEnds p s (endReception p (takeHello p code fw) s.quiet) t) (hne : code ≠ c.classCode) :
    FaultEntered p .mismatch s t ∧ (s.port p).countsKept (t.port p) ∧
      (t.port p).toGovernor =
        (s.port p).toGovernor ++ (if (s.port p).state = .booting then [.release] else []) ∧
      (t.port p).firmware = some fw := by
  have hon : (s.port p).railOn = true := by
    unfold Port.railOn; cases hs : (s.port p).state <;> simp_all [PState.railOn, PState.isAlive]
  have hwarm : (s.port p).state.isWarming = decide ((s.port p).state = .booting) := by
    cases hs : (s.port p).state <;> simp_all [PState.isWarming, PState.isAlive]
  have haside := firmwareHeard_aside fw (s.port p)
  have hbody : endReception p (takeHello p code fw) s.quiet =
      fault p .mismatch (s.quiet.modPort p (Port.firmwareHeard fw)) := by
    rw [endReception_takeHello (r := c) _ _ (by simpa using hclass), if_pos hne, grantPoint_of_not_free]
    apply fault_lane_closed
    rw [port_modPort_self, port_quiet, haside.railOn]
    exact hon
  obtain ⟨hport, hentered⟩ := fault_ends he hbody haside hon
  refine ⟨hentered, ?_, ?_, ?_⟩ <;> rw [hport]
  · unfold Port.countsKept Port.firmwareHeard Port.endOfReception Port.exchanged Port.laneFreed
    split <;> exact ⟨rfl, rfl, rfl⟩
  · simp [hwarm]
  · rfl

/-- HELLO of the port's class, with a profile to send (R22, R31). -/
theorem hello_tunes {e : ProfileEntry} {es : Profile} (hgood : (s.port p).Good)
    (hclass : (s.port p).classRecord = some c)
    (hst : (s.port p).state = .booting ∨ (s.port p).state.isAlive = true)
    (he : PortEventEnds p s (endReception p (takeHello p c.classCode fw) s.quiet) t)
    (hf : PortAndOutcomes p s t) (hp : (s.port p).profile = e :: es) :
    OnlyPort p s t ∧ t.port p = ((s.port p).heardOf fw).nowTuning s.cadence.beat e ∧
      (if (s.port p).state = .tuning then RegsKept s t else CausesSet 0x02 s t) := by
  obtain ⟨hlane, hk, hs, htimer, hprof, -, -, hstate⟩ := tunable_ready fw hgood hst
  rw [endReception_takeHello_match fw (by simpa using hclass) (by simpa using hst)] at he
  have hr := ((PortRun.refl (p := p) (gives := false) (s := s.quiet)).modPort _
    (tunable_waiters fw)).enterTuning_of_profile (by simp [hprof, hp]) |>.grantPoint
  refine ⟨hf.onlyPort (he.board ⟨hr.walker, hr.inflight⟩), ?_, ?_⟩
  · rw [he.port, ← tunable_nowTuning fw _ _ hst, ← tuningEntered_granted _ hlane hk hs htimer (hprof.trans hp)]
    simp
  · have hregs : t.regs = if (s.port p).state = .tuning then s.regs else s.regs.caused 2 := by
      rw [he.regs]; simp [hstate, hprof, hp]
    split <;> rename_i h <;> simp [RegsKept, causesSet_iff, hregs, h]

/-- HELLO of the port's class, with no profile (R22, R31, R81). -/
theorem hello_readies (hgood : (s.port p).Good) (hclass : (s.port p).classRecord = some c)
    (hst : (s.port p).state = .booting ∨ (s.port p).state.isAlive = true)
    (he : PortEventEnds p s (endReception p (takeHello p c.classCode fw) s.quiet) t)
    (hp : (s.port p).profile = []) : ReadyEntered p ((s.port p).heardOf fw) s t := by
  obtain ⟨hlane, hk, hs, -, hprof, htar, -, hstate⟩ := tunable_ready fw hgood hst
  rw [endReception_takeHello_match fw (by simpa using hclass) (by simpa using hst)] at he
  refine readyEntered_of ?_ ?_ fun e => ?_
  · rw [causesSet_iff, he.regs]; simp [hprof, hp]
  · rw [he.port, ← tunable_nowReady fw _ hst, ← tuningEntered_granted_nil _ hlane hk hs (hprof.trans hp)]
    simp
  · rw [he.entry, grantPoint_entry, enterTuning_entry, entryAfter_tunable]
    simp [hprof, hp, htar, Port.heardOf]

/-- HELLO of the port's class in STOPPING: the firmware level alone (R58). -/
theorem hello_stopping (hgood : (s.port p).Good) (hclass : (s.port p).classRecord = some c)
    (hst : (s.port p).state = .stopping)
    (he : PortEventEnds p s (endReception p (takeHello p c.classCode fw) s.quiet) t)
    (hf : PortAndOutcomes p s t) :
    OnlyPort p s t ∧ RegsKept s t ∧ t.port p = { s.port p with firmware := some fw, lane := .free } := by
  have hna : (s.port p).state.isAlive = false := by rw [hst]; rfl
  obtain ⟨-, hk, hc⟩ := hgood.still hna
  rw [endReception_takeHello (r := c) _ _ (by simpa using hclass), if_neg (by simp),
    if_neg (by simp [hst]), if_neg (by simp [hst, PState.isAlive])] at he
  have hr := ((PortRun.refl (p := p) (gives := false) (s := s.quiet)).modPort _
    fun x => (firmwareHeard_aside fw x).intent.2.2).grantPoint
  refine ⟨hf.onlyPort (he.board ⟨hr.walker, hr.inflight⟩), by simp [RegsKept, he.regs], ?_⟩
  rw [he.port]
  simp [Port.firmwareHeard, Port.firmwareSet, endOfReception_of_not_alive hna, Port.granted, hk, hc]

end Hello

/-- Settles O19, by whether the class matches and by the state. -/
theorem helloTunesOrFaults : Obligations.HelloTunesOrFaults := by
  intro p rx code fw c s h hsound hl hcount hj hclass x heard
  have hgood : x.Good := (portsSound_iff s).1 hsound p
  have hhear := hgood.hearing hl
  obtain ⟨t, ht, he, hf⟩ := portEvent_ends_of_run h
    ((PortRun.refl (p := p)).endReception fun _ => PortRun.refl.takeHello code fw)
  have hmis := hello_mismatch hclass hhear he
  have htunes := fun e es (hcode : code = c.classCode) (hp : x.profile = e :: es) hst =>
    hello_tunes hgood hclass hst (hcode ▸ he) hf hp
  have hreadies := fun (hcode : code = c.classCode) (hp : x.profile = []) hst =>
    hello_readies hgood hclass hst (hcode ▸ he) hp
  have hstops := fun (hcode : code = c.classCode) (hst : x.state = .stopping) =>
    hello_stopping hgood hclass hst (hcode ▸ he) hf
  refine ⟨t, (exec_hello hl hcount hj).trans ht, hf, ?_, fun hne => ?_, htunes, hreadies, hstops⟩
  · by_cases hcode : code = c.classCode
    · by_cases hst : x.state = .stopping
      · obtain ⟨-, -, hport⟩ := hstops hcode hst
        rw [hport]
      · have hst' : x.state = .booting ∨ x.state.isAlive = true := by tauto
        cases hp : x.profile with
        | nil =>
          obtain ⟨-, hport, -⟩ := hreadies hcode hp hst'
          rw [hport]; rfl
        | cons e es =>
          obtain ⟨-, hport, -⟩ := htunes e es hcode hp hst'
          rw [hport]; rfl
    · obtain ⟨-, -, -, hfw⟩ := hmis hcode
      exact hfw
  · obtain ⟨hentered, hcounts, htold, -⟩ := hmis hne
    exact ⟨hentered, hcounts, htold⟩

end Sys2Proof.Machine
end

section
/-! PARTING (O21). -/

set_option Elab.async false

namespace Sys2Proof.Machine

variable {p : PortNo} {s t : State}

theorem exec_parting {rx : RxBuffer} (hl : (s.port p).lane = .receiving rx) (hc : rx.count < 6)
    (hj : judgePhrase rx = some .parting) :
    exec (.parting p) s = portEvent p (endReception p (takeParting p)) s := by
  simp [exec, execParting, heard_of_receiving hl hc hj]

theorem endOfReception_kept (x : Port) :
    x.cableKept x.endOfReception ∧ x.mailKept x.endOfReception ∧ x.endOfReception.stale = x.stale := by
  unfold Port.cableKept Port.mailKept Port.endOfReception Port.exchanged Port.laneFreed
  split <;> exact ⟨⟨rfl, rfl, rfl, rfl, rfl, rfl⟩, ⟨rfl, rfl, rfl, rfl, rfl, rfl, rfl⟩, rfl⟩

/-! ## A body that draws a stamp -/

theorem drawStamp_calm (s : State) (p : PortNo) : Calm s (s.drawStamp p) := .of_boardKept ⟨rfl, rfl⟩

theorem partAlive_run :
    PortRun p true (((cutRail p .parted s).drawStamp p).modPort p fun x => { x with target := .off })
      (partAlive p s) :=
  (PortRun.refl.giveAll rfl .parted).enterOff

theorem takeParting_calm : Calm s (takeParting p s) := by
  unfold takeParting
  split_ifs
  · have hcut := (PortRun.refl.cutRail (p := p) (gives := true) (s := s) .parted).calm
    have htarget : Calm ((cutRail p .parted s).drawStamp p)
        (((cutRail p .parted s).drawStamp p).modPort p fun x => { x with target := .off }) := .of_boardKept ⟨rfl, rfl⟩
    exact ((hcut.trans (drawStamp_calm _ p)).trans htarget).trans partAlive_run.calm
  · exact ((PortRun.refl.cutRail _).enterOff).calm
  · exact .refl s

theorem endReception_calm {take : State → State} (h : ∀ u, Calm u (take u)) : Calm s (endReception p take s) := by
  rw [endReception_eq]
  have hend : Calm s (s.modPort p Port.endOfReception) := .of_boardKept ⟨rfl, rfl⟩
  exact (hend.trans (h _)).trans (PortRun.refl (gives := true)).grantPoint.calm

theorem endReception_takeParting_step : PortStep p s (endReception p (takeParting p) s) := by
  rw [endReception_eq]
  exact (((PortStep.refl p s).modPort _).takeParting).grantPoint

/-- PARTING leaves the reader alone. -/
theorem takeParting_reader : (takeParting p s).reader = s.reader := by
  unfold takeParting
  split_ifs
  · have h := (partAlive_run (p := p) (s := s)).reader
    simpa [State.drawStamp] using h
  · exact ((PortRun.refl.cutRail _).enterOff).reader
  · rfl

/-! ## PARTING in an alive state -/

section Alive

/-- The port that its camera's PARTING leaves (R30). -/
def Port.partedAt (stamp beat : Word) (x : Port) : Port :=
  { x.endOfReception.dark .off beat .parted with
    stamp := stamp, target := .off, bootAttempts := 0, tripCount := 0, recovery := 0, waiters := [] }

theorem partingTaken_of_alive {x : Port} (stamp beat : Word) (ha : x.state.isAlive = true) :
    x.endOfReception.partingTaken stamp beat = x.partedAt stamp beat := by
  have hon : x.endOfReception.railOn = true := by
    rw [(endOfReception_aside x).railOn]; exact railOn_of_alive ha
  have ho : x.state ≠ .off := Port.state_ne_of_railOn (railOn_of_alive ha) rfl
  simp [Port.partingTaken, Port.railCut_of_on _ hon, Port.wentOff, Port.countsCleared, Port.entered,
    Port.reachedTarget, Port.partedAt, Port.dark, ha, ho, show PState.off.isAlive = false from rfl]

theorem takeParting_of_alive (ha : (s.port p).state.isAlive = true) : takeParting p s = partAlive p s := by
  simp [takeParting, ha]

theorem takeParting_entry (ha : (s.port p).state.isAlive = true) (e : EntryNo) :
    (takeParting p s).entry e = s.entryAfter p .parted e := by
  rw [takeParting_of_alive ha, partAlive, enterOff_entry]
  simp only [giveAll_port_self, port_modPort_self, if_true]
  rw [entryAfter_of_nil _ _ (by simp), giveAll_entry]
  exact entryAfter_congr _ _ (by simp) (by simp)

theorem takeParting_regs (ha : (s.port p).state.isAlive = true) :
    (takeParting p s).regs = s.regs.caused 2 := by
  have ho : (s.port p).state ≠ .off := by rintro ho; rw [ho] at ha; cases ha
  rw [takeParting_of_alive ha, partAlive, enterOff_regs _ _ (by simpa using ho)]
  simp

theorem takeParting_stampCounter (ha : (s.port p).state.isAlive = true) :
    (takeParting p s).stampCounter = s.stampCounter + 1 := by
  rw [takeParting_of_alive ha, partAlive_run.stampCounter]
  simp

end Alive

theorem parting_alive (ha : (s.port p).state.isAlive = true)
    (he : PortEventEnds p s (endReception p (takeParting p) s.quiet) t) :
    t.port p = (s.port p).partedAt (s.stampCounter + 1) s.cadence.beat ∧ t.stampCounter = s.stampCounter + 1 ∧
      CausesSet 0x02 s t ∧ WaitersReceive p .parted s t := by
  have hport := partingTaken_of_alive (s.stampCounter + 1) s.cadence.beat ha
  have ha' : ((s.quiet.modPort p Port.endOfReception).port p).state.isAlive = true := by simpa using ha
  have hgrant : grantPoint p (takeParting p (s.quiet.modPort p Port.endOfReception)) =
      takeParting p (s.quiet.modPort p Port.endOfReception) := by
    apply grantPoint_of_not_free
    rw [takeParting_port, port_modPort_self, port_quiet, modPort_stampCounter, modPort_cadence, quiet_cadence,
      quiet_stampCounter, hport]
    exact Lane.noConfusion
  rw [endReception_eq, hgrant] at he
  refine ⟨?_, ?_, ?_, fun e => ?_⟩
  · rw [he.port, ← hport]; simp
  · rw [he.stampCounter, takeParting_stampCounter ha']; simp
  · rw [causesSet_iff, he.regs, takeParting_regs ha']; simp
  · rw [he.entry, takeParting_entry ha', entryAfter_endOfReception]; rfl

/-! ## PARTING in STOPPING -/

theorem endReception_takeParting_stopping (hst : (s.port p).state = .stopping) :
    endReception p (takeParting p) s =
      enterOff p (cutRail p .stopped (s.modPort p Port.endOfReception)) := by
  have htake : takeParting p (s.modPort p Port.endOfReception) =
      enterOff p (cutRail p .stopped (s.modPort p Port.endOfReception)) := by
    simp [takeParting, hst, PState.isAlive]
  have hon : (s.port p).endOfReception.railOn = true := by
    unfold Port.railOn; rw [endOfReception_state, hst]; rfl
  rw [endReception_eq, htake, grantPoint_of_not_free]
  rw [enterOff_port, cutRail_port, port_modPort_self, Port.wentOff_of_on _ _ hon]
  split <;> exact Lane.noConfusion

theorem modEndOfReception_run {gives : Bool} : PortRun p gives s (s.modPort p Port.endOfReception) :=
  PortRun.refl.modPort _ fun x => (endOfReception_aside x).intent.2.2

theorem parting_stopping (hst : (s.port p).state = .stopping)
    (he : PortEventEnds p s (endReception p (takeParting p) s.quiet) t) :
    t.stampCounter = s.stampCounter ∧
      ((s.port p).target = .off →
        t.port p =
            { (s.port p).endOfReception.dark .off s.cadence.beat .stopped with
              bootAttempts := 0, tripCount := 0, recovery := 0, waiters := [] } ∧
          OffEntered p .stopped s t) ∧
      ((s.port p).target ≠ .off →
        t.port p =
            { (s.port p).endOfReception.dark .queued s.cadence.beat .stopped with
              bootAttempts := 0, tripCount := 0, recovery := 0
              toGovernor := (s.port p).toGovernor ++ [.claim] } ∧
          QueuedEntered p .stopped [.claim] s t) := by
  have hbody := endReception_takeParting_stopping (p := p) (s := s.quiet) (by simpa using hst)
  refine ⟨?_, cutToOff_ends he hbody (endOfReception_aside _) (by unfold Port.railOn; rw [hst]; rfl)⟩
  rw [he.stampCounter, hbody]
  exact (modEndOfReception_run.cutRail _).enterOff.stampCounter

/-! ## PARTING elsewhere -/

theorem parting_ignored (hna : (s.port p).state.isAlive = false) (hst : (s.port p).state ≠ .stopping)
    (he : PortEventEnds p s (endReception p (takeParting p) s.quiet) t) :
    t.stampCounter = s.stampCounter ∧ OnlyPort p s t ∧ RegsKept s t ∧
      t.port p = (s.port p).endOfReception.granted := by
  have htake : takeParting p (s.quiet.modPort p Port.endOfReception) = s.quiet.modPort p Port.endOfReception := by
    simp [takeParting, hna, hst]
  have hr := (modEndOfReception_run (p := p) (gives := true) (s := s.quiet)).grantPoint
  have hbody : endReception p (takeParting p) s.quiet = _ := (endReception_eq _).trans (congrArg _ htake)
  have hreader : t.reader = s.reader := by rw [he.reader, hbody]; exact hr.reader
  have hstamp : t.stampCounter = s.stampCounter := by rw [he.stampCounter, hbody]; exact hr.stampCounter
  exact ⟨hstamp,
    phrase_ignored ⟨he.rig, hreader, hstamp, he.walker, he.others, he.regsKept, he.slots⟩ he htake⟩

theorem granted_kept (x : Port) : x.cableKept x.granted ∧ x.mailKept x.granted := by
  unfold Port.cableKept Port.mailKept Port.granted
  split_ifs
  · exact ⟨⟨rfl, rfl, rfl, rfl, rfl, rfl⟩, rfl, rfl, rfl, rfl, rfl, rfl, rfl⟩
  · split <;> exact ⟨⟨rfl, rfl, rfl, rfl, rfl, rfl⟩, rfl, rfl, rfl, rfl, rfl, rfl, rfl⟩
  all_goals exact ⟨⟨rfl, rfl, rfl, rfl, rfl, rfl⟩, rfl, rfl, rfl, rfl, rfl, rfl, rfl⟩

theorem endOfReception_granted_kept (x : Port) :
    x.cableKept x.endOfReception.granted ∧ x.mailKept x.endOfReception.granted := by
  have h := granted_kept x.endOfReception
  have k := endOfReception_kept x
  simp_all [Port.cableKept, Port.mailKept]

/-- Settles O21, by the state that the phrase finds. -/
theorem partingSwitchesThePortOff : Obligations.PartingSwitchesThePortOff := by
  intro p rx s h hl hcount hj x
  obtain ⟨t, ht, he⟩ := portEvent_ends (body := endReception p (takeParting p)) h endReception_takeParting_step
    (endReception_calm fun _ => takeParting_calm)
  have hreader : t.reader = s.reader := by
    rw [he.reader, endReception_eq, (PortRun.refl (gives := true)).grantPoint.reader, takeParting_reader]; simp
  obtain ⟨hcable, hmail, hstale⟩ := endOfReception_kept x
  have haside := endOfReception_aside x
  refine ⟨t, (exec_parting hl hcount hj).trans ht, he.rig, he.others, hreader, he.walker, he.regsKept, ?_⟩
  by_cases ha : x.state.isAlive = true
  · obtain ⟨hport, hstamp, hcauses, hreceive⟩ := parting_alive ha he
    have hne : x.state ≠ .stopping ∧ x.state ≠ .booting := by
      constructor <;> rintro hst <;> rw [hst] at ha <;> cases ha
    refine ⟨by rw [hport]; exact hcable, by rw [hport]; exact hmail, fun _ => ?_, fun hst => absurd hst hne.1,
      fun hst => absurd hst hne.1, fun hst => absurd hst hne.2⟩
    rw [hport]
    exact ⟨hstamp, hcauses, hreceive, rfl, rfl, rfl, rfl, rfl, ⟨rfl, rfl, rfl, rfl, rfl, rfl, rfl, rfl⟩, rfl, rfl,
      rfl, haside.toGovernor, hstale⟩
  · by_cases hst : x.state = .stopping
    · obtain ⟨hstamp, hoff, hqueued⟩ := parting_stopping hst he
      have hnb : x.state ≠ .booting := by rw [hst]; decide
      by_cases htar : x.target = .off
      · obtain ⟨hport, hentered⟩ := hoff htar
        refine ⟨by rw [hport]; exact hcable, by rw [hport]; exact hmail, fun hc => absurd hc ha, fun _ _ => ?_,
          fun _ hc => absurd htar hc, fun hc => absurd hc hnb⟩
        refine ⟨hstamp, hentered, ?_⟩
        rw [hport]
        exact ⟨haside.intent.2.1, haside.toGovernor, hstale⟩
      · obtain ⟨hport, hentered⟩ := hqueued htar
        exact ⟨by rw [hport]; exact hcable, by rw [hport]; exact hmail, fun hc => absurd hc ha,
          fun _ hc => absurd hc htar, fun _ _ => ⟨hstamp, hentered⟩, fun hc => absurd hc hnb⟩
    · have hna : x.state.isAlive = false := by simpa using ha
      obtain ⟨hstamp, honly, hregs, hport⟩ := parting_ignored hna hst he
      obtain ⟨hcable, hmail⟩ := endOfReception_granted_kept x
      refine ⟨by rw [hport]; exact hcable, by rw [hport]; exact hmail, fun hc => absurd hc ha,
        fun hc => absurd hc hst, fun hc => absurd hc hst, fun _ hk hc => ⟨hstamp, honly.2.2.2.1, hregs, ?_⟩⟩
      exact hport.trans (endOfReception_granted_of_not_alive hna hk hc)

end Sys2Proof.Machine
end

section
/-! The plug taken out (O23). -/

set_option Elab.async false

namespace Sys2Proof.Machine

variable {p : PortNo} {s t : State}

/-- The port with its plug debounced. -/
def Port.plugSettled (x : Port) : Port := { x with plugDebounce := none }

theorem plugDebounced_removal (hl : (s.port p).plugLevel = false) (hp : (s.port p).plugged = true) :
    plugDebounced p s = removePlug p (s.modPort p Port.plugSettled) := by
  simp [plugDebounced, hl, hp]; rfl

theorem exec_plugDebounceExpiry_removal (h : (s.port p).plugDebounce = some 0)
    (hl : (s.port p).plugLevel = false) :
    exec (.plugDebounceExpiry p) s = portEvent p (plugDebounced p) s :=
  execPlugDebounceExpiry_taken h fun hd => by simp [Port.insertDue, hl] at hd

/-! ## Leaving the reader -/

section LeaveReader

variable (p : PortNo) (s : State)

@[simp] theorem leaveReader_walker : (leaveReader p s).walker = s.walker := by
  unfold leaveReader; dsimp only; split_ifs <;> simp [State.tellReader]

@[simp] theorem leaveReader_inflight : (leaveReader p s).inflight = s.inflight := by
  unfold leaveReader; dsimp only; split_ifs <;> simp [State.tellReader]

@[simp] theorem leaveReader_regs : (leaveReader p s).regs = s.regs := by
  unfold leaveReader; dsimp only; split_ifs <;> simp [State.tellReader]

@[simp] theorem leaveReader_stampCounter : (leaveReader p s).stampCounter = s.stampCounter := by
  unfold leaveReader; dsimp only; split_ifs <;> simp [State.tellReader]

@[simp] theorem leaveReader_entry (e : EntryNo) : (leaveReader p s).entry e = s.entry e :=
  entry_congr (leaveReader_inflight p s) e

theorem leaveReader_reader_if :
    (leaveReader p s).reader =
      if (s.port p).state = .identifying ∧ s.waitsForReader p then
        { s.reader with queue := s.reader.queue.erase p }
      else s.reader := by
  by_cases hst : (s.port p).state = .identifying
  · rw [leaveReader_reader hst]
    simp [hst, State.waitsForReader]
  · rw [leaveReader_of_ne hst, if_neg fun h => hst h.1]

end LeaveReader

/-! ## The removal -/

/-- The state of a removal before the port's waiters receive their outcome (R29). -/
def unplug (p : PortNo) (s : State) : State :=
  (leaveReader p (giveUpHoldings p (cutRail p .unplugged s))).modPort p fun x =>
    { x with
      classRecord := none, firmware := none, target := .off, endReason := .unplugged
      bootAttempts := 0, tripCount := 0, recovery := 0, plugged := false }

theorem removePlug_eq : removePlug p s = enterState p .empty ((unplug p s).giveAll p .unplugged) := rfl

theorem removePlug_run : PortRun p true (unplug p s) (removePlug p s) :=
  (PortRun.refl.giveAll rfl _).enterState _

theorem cutRail_giveUp_run {why : EndReason} : PortRun p false s (giveUpHoldings p (cutRail p why s)) :=
  (PortRun.refl.cutRail why).giveUpHoldings

theorem unplug_boardKept : BoardKept s (unplug p s) := by
  have hr := cutRail_giveUp_run (p := p) (s := s) (why := .unplugged)
  exact ⟨by simpa [unplug] using hr.walker, by simpa [unplug] using hr.inflight⟩

theorem removePlug_calm : Calm s (removePlug p s) := (Calm.of_boardKept unplug_boardKept).trans removePlug_run.calm

theorem removePlug_entry (e : EntryNo) : (removePlug p s).entry e = s.entryAfter p .unplugged e := by
  rw [removePlug_eq, enterState_entry, giveAll_entry]
  refine entryAfter_congr _ _ ?_ (entry_congr unplug_boardKept.2 e)
  simp only [unplug, port_modPort_self, leaveReader_port, giveUpHoldings_port, cutRail_port, Port.readerLeft]
  split <;> simp

theorem removePlug_regs (h : (s.port p).state ≠ .empty) : (removePlug p s).regs = s.regs.caused 2 := by
  have hst : (((unplug p s).giveAll p .unplugged).port p).state = (s.port p).state := by
    simp only [unplug, giveAll_port_self, port_modPort_self, leaveReader_port, giveUpHoldings_port, cutRail_port,
      Port.readerLeft]
    split <;> simp
  rw [removePlug_eq, enterState_regs, hst, if_neg h]
  simp [unplug]

theorem removePlug_stampCounter : (removePlug p s).stampCounter = s.stampCounter := by
  rw [removePlug_run.stampCounter]
  simpa [unplug] using (cutRail_giveUp_run (p := p) (s := s) (why := .unplugged)).stampCounter

theorem removePlug_reader :
    (removePlug p s).reader =
      if (s.port p).state = .identifying ∧ s.waitsForReader p then
        { s.reader with queue := s.reader.queue.erase p }
      else s.reader := by
  have hr := (cutRail_giveUp_run (p := p) (s := s) (why := .unplugged)).reader
  have hw : (giveUpHoldings p (cutRail p .unplugged s)).waitsForReader p = s.waitsForReader p := by
    simp [State.waitsForReader]
  rw [removePlug_run.reader, unplug, modPort_reader, leaveReader_reader_if, hr, hw]
  simp

/-- The port that a removal leaves (R29), `waits` being whether it waited in the Reader Queue. -/
theorem removed_eq {x : Port} (waits : Bool) (beat : Word) (h : x.state ≠ .empty) :
    x.removed waits beat =
      { x with
        state := .empty, stateBeat := beat, timer := none, silence := 0, keepDue := false, stepClaim := false
        cursor := 0, restart := false, lane := if x.railOn then .closed else x.lane
        wakePulse := if x.railOn then none else x.wakePulse, endReason := .unplugged, bootAttempts := 0
        tripCount := 0, recovery := 0, classRecord := none, firmware := none, target := .off, plugged := false
        waiters := []
        toGovernor := x.toGovernor ++
          (if x.state = .queued then [.withdrawal] else if x.state.isWarming then [.release] else [])
        toReader :=
          (if x.state = .identifying then x.toReader.filter (· != .join) else x.toReader) ++
            (if x.state = .identifying ∧ waits = false ∧ x.joining = false then [.withdrawal] else []) } := by
  have hleaves : (if waits = true ∨ x.joining = true then [] else [ReaderMsg.withdrawal]) =
      if waits = false ∧ x.joining = false then [.withdrawal] else [] := by
    cases waits <;> cases x.joining <;> rfl
  cases hst : x.state <;>
    simp_all [Port.removed, Port.railCut, Port.railOn, PState.railOn, Port.gaveUp, Port.told, Port.readerLeft,
      Port.countsCleared, Port.entered, PState.isWarming, PState.isAlive]

/-- Settles O23: the record that the removal leaves is computed, and the reader's by its own lemma. -/
theorem plugDebounceRemovesTheCable : Obligations.PlugDebounceRemovesTheCable := by
  intro p s h hdue hlevel hplugged hst x waits joining
  have hbody := plugDebounced_removal (p := p) (s := s.quiet) hlevel hplugged
  have hsettled : Calm s.quiet (s.quiet.modPort p Port.plugSettled) := .of_boardKept ⟨rfl, rfl⟩
  obtain ⟨t, ht, he⟩ := portEvent_ends (body := plugDebounced p) (p := p) h
    (by rw [hbody]; exact ((PortStep.refl p _).modPort _).removePlug)
    (by rw [hbody]; exact hsettled.trans removePlug_calm)
  rw [hbody] at he
  have hwaits : (decide (x.state = .identifying) && s.waitsForReader p) = waits := by
    cases hr : s.reader.state <;> simp [waits, State.waitsForReader, ReaderState.serves, hr, bne, Bool.and_assoc]
  have hport : t.port p = x.plugSettled.removed (s.waitsForReader p) s.cadence.beat := by
    rw [he.port, removePlug_port, port_modPort_self]; rfl
  rw [removed_eq _ _ (show x.plugSettled.state ≠ .empty from hst)] at hport
  refine ⟨t, (exec_plugDebounceExpiry_removal hdue hlevel).trans ht, he.rig, he.others, he.walker, ?_, ?_,
    fun e => ?_, ?_, ?_, ?_, ?_⟩
  · rw [he.stampCounter, removePlug_stampCounter]; rfl
  · rw [causesSet_iff, he.regs, removePlug_regs (by simpa [Port.plugSettled] using hst)]; rfl
  · rw [he.entry, removePlug_entry]
    exact entryAfter_congr _ _ (by simp [Port.plugSettled]) rfl
  · have hkept : (s.quiet.modPort p Port.plugSettled).waitsForReader p = s.waitsForReader p := rfl
    rw [he.reader, removePlug_reader, hkept, ← hwaits]
    simp [Port.plugSettled, x]
  · rw [hport, ← hwaits]
    by_cases hid : x.state = .identifying <;> simp [Port.plugSettled, joining, hid, Port.joining]
  · rw [hport]; rfl
  · rw [hport]
    refine ⟨rfl, rfl, rfl, rfl, rfl, rfl, rfl, rfl, rfl, rfl, rfl, rfl, rfl, rfl, rfl, rfl, rfl, fun hon => ?_⟩
    have hon' : x.plugSettled.railOn = true := hon
    simp [Port.railDown, hon']

end Sys2Proof.Machine
end

section
/-! Target sets (O43, O44): what becomes of the port's target, stamp, waiters and recovery count, and of the entries
that wait on it. -/

set_option Elab.async false

namespace Sys2Proof.Machine

variable {p : PortNo} {s : State}

/-! ## The host's wish and its waiters -/

namespace Port

variable (x : Port)

/-- What a target set is about: the target and its stamp, the waiters, and the recoveries spent (R12, R14). -/
def aim : Target × Word × List EntryNo × Nat := (x.target, x.stamp, x.waiters, x.recovery)

@[simp] theorem entered_aim (st : PState) (b : Word) : (x.entered st b).aim = x.aim := by
  unfold entered; split <;> rfl

@[simp] theorem told_aim (m : GovMsg) : (x.told m).aim = x.aim := rfl

@[simp] theorem queuedUp_aim (b : Word) : (x.queuedUp b).aim = x.aim := by simp [queuedUp]

@[simp] theorem railCut_aim (why : EndReason) : (x.railCut why).aim = x.aim := by
  unfold railCut; split <;> rfl

@[simp] theorem gaveUp_aim : x.gaveUp.aim = x.aim := by unfold gaveUp; split_ifs <;> rfl

@[simp] theorem claimRaised_aim : x.claimRaised.aim = x.aim := rfl

@[simp] theorem granted_aim : x.granted.aim = x.aim := by
  unfold granted
  split_ifs
  · rfl
  · split <;> rfl
  all_goals rfl

@[simp] theorem waitedFor_aim (t : Target) (ms : Nat) : (x.waitedFor t ms).aim = x.aim := rfl

@[simp] theorem calledAgain_aim (old : Target) : (x.calledAgain old).aim = x.aim := by
  unfold calledAgain; split <;> simp

theorem target_of_aim {x y : Port} (h : y.aim = x.aim) : y.target = x.target := congrArg (·.1) h

/-- The way to OFF reaches target OFF, and spends no recovery (R14, R19). -/
theorem wentOff_aim (b : Word) :
    (x.wentOff b).aim = (x.target, x.stamp, if x.target = .off then [] else x.waiters, 0) := by
  have h : (x.countsCleared.entered .off b).aim = (x.target, x.stamp, x.waiters, 0) := by simp; rfl
  unfold wentOff
  split
  · simp only [aim, reachedTarget, Prod.mk.injEq] at h ⊢
    tauto
  · simpa using h

/-- The target set switches a port off in its own event (R12, R33). -/
def sentOff (t : TargetSet) : Bool :=
  decide (t.target = .off) && (decide (x.state = .queued) || x.state.isWarming || (t.cut && x.railOn))

/-- The target set cuts the rail, or ends the wait for a slot, at once (R33). -/
def cutAtOnce (t : TargetSet) : Bool := t.cut && (decide (x.state = .queued) || x.railOn)

end Port

section TargetSets

variable {x : Port} {t : TargetSet}

theorem declines_none (h : declines x t = none) :
    x.state.isAbsent = false ∧ x.state.isFaulted = false ∧ (t.resume = true → x.target = .paused) := by
  unfold declines at h
  split_ifs at h with h₁ h₂ h₃
  simp_all

/-- The answer of a target set that is taken (Table 8-5). -/
theorem answerTo_taken (h : declines x t = none) :
    answerTo x t =
      if x.state = t.target.goal then .decided .already
      else if x.sentOff t then .decided .reached
      else .waiting := by
  unfold answerTo Port.sentOff Port.railOn
  rw [h]
  dsimp only
  by_cases htar : t.target = .off <;> cases hw : x.state.isWarming <;> cases t.cut <;>
    cases hon : x.state.railOn <;> by_cases hq : x.state = .queued <;> simp_all

theorem cutOff_aim (y : Port) (b : Word) :
    (y.cutOff b).aim = (y.target, y.stamp, if y.target = .off then [] else y.waiters, 0) := by
  have h : (y.gaveUp.railCut .cut).aim = y.aim := by simp
  obtain ⟨htar, hstamp, hwait, -⟩ := by simpa only [Port.aim, Prod.mk.injEq] using h
  rw [Port.cutOff, Port.wentOff_aim, htar, hstamp, hwait]

/-- Acting on a target reaches OFF in QUEUED and the warming states alone (Table 1-3). -/
theorem targetActed_aim (y : Port) (old : Target) (b : Word) :
    (y.targetActed old b).aim =
      if y.target = .off ∧ (y.state = .queued ∨ y.state.isWarming = true) then (y.target, y.stamp, [], 0)
      else y.aim := by
  have hoff : ∀ z : Port, z.aim = y.aim → y.target = .off → (z.wentOff b).aim = (y.target, y.stamp, [], 0) := by
    intro z hz htar
    obtain ⟨htarget, hstamp, -, -⟩ := by simpa only [Port.aim, Prod.mk.injEq] using hz
    rw [Port.wentOff_aim, htarget, hstamp, if_pos htar]
  unfold Port.targetActed
  cases hst : y.state
  case off => by_cases htar : y.target = .off <;> simp [htar, PState.isWarming]
  case queued =>
    by_cases htar : y.target = .off
    · simp only [htar, if_true, true_and, true_or]
      rw [hoff _ (y.told_aim _) htar, htar]
    · simp [htar]
  case powering | booting =>
    by_cases htar : y.target = .off
    · simp only [htar, if_true, true_and]
      rw [hoff _ (by simp) htar, htar]
      simp [PState.isWarming]
    · simp [htar]
  all_goals simp [PState.isWarming]

theorem sentOff_of_cut (h : x.cutAtOnce t = true) : x.sentOff t = decide (t.target = .off) := by
  unfold Port.cutAtOnce at h
  unfold Port.sentOff
  simp only [Bool.and_eq_true, Bool.or_eq_true] at h
  obtain ⟨hc, hq | hon⟩ := h
  · simp [hq]
  · simp [hc, hon]

theorem sentOff_of_not_cut (h : ¬x.cutAtOnce t = true) :
    x.sentOff t = true ↔ t.target = .off ∧ (x.state = .queued ∨ x.state.isWarming = true) := by
  unfold Port.cutAtOnce at h
  unfold Port.sentOff
  simp only [Bool.and_eq_true, Bool.or_eq_true, decide_eq_true_eq] at h ⊢
  tauto

/-- The cut of a port for another target than OFF leaves its waiters (R12, R33). -/
theorem carriedOut_aim (y : Port) (hst : y.state = x.state) (htar : y.target = t.target) (old : Target) (b : Word) :
    (y.carriedOut t old b).aim =
      if x.sentOff t then (y.target, y.stamp, [], 0)
      else if x.cutAtOnce t then (y.target, y.stamp, y.waiters, 0)
      else y.aim := by
  have hkept : ∀ z : Port, ({ z with cut := false } : Port).aim = z.aim := fun _ => rfl
  have hset : ({ y with cut := t.cut } : Port).aim = y.aim := rfl
  unfold Port.carriedOut
  simp only [hkept]
  by_cases hcut : x.cutAtOnce t = true
  · have hcut' : t.cut = true ∧ (y.state = .queued ∨ y.railOn = true) := by
      simpa [Port.cutAtOnce, Port.railOn, hst] using hcut
    rw [if_pos hcut', cutOff_aim, sentOff_of_cut hcut]
    by_cases hoff : t.target = .off <;> simp [hcut, hoff, htar]
  · have hcut' : ¬(t.cut = true ∧ (y.state = .queued ∨ y.railOn = true)) := by
      simpa [Port.cutAtOnce, Port.railOn, hst] using hcut
    have hacted := targetActed_aim { y with cut := t.cut } old b
    dsimp only at hacted
    rw [if_neg hcut', if_neg hcut, hacted, hset, hst, htar]
    simp only [sentOff_of_not_cut hcut]

/-- A port in the goal state of the target is not switched off. -/
theorem sentOff_of_goal (h : x.state = t.target.goal) : x.sentOff t = false := by
  cases htar : t.target <;> simp_all [Port.sentOff, Target.goal, Port.railOn, PState.isWarming, PState.railOn]

/-- The wish of a port after a target set that is taken (R12, R13). -/
theorem targetTaken_aim (ref : Option EntryNo) (stamp beat : Word) (h : declines x t = none) :
    (x.targetTaken t ref stamp beat).aim =
      if x.state = t.target.goal then (t.target, stamp, if t.target = x.target then x.waiters else [], 0)
      else if x.sentOff t then (t.target, stamp, [], 0)
      else
        (t.target, stamp, (if t.target = x.target then x.waiters else []) ++ ref.toList,
          if x.cutAtOnce t then 0 else x.recovery) := by
  obtain ⟨y, hy, hstored⟩ : ∃ y, ({ x with stamp := stamp } : Port).targetStored t.target = y ∧
      y.aim = (t.target, stamp, if t.target = x.target then x.waiters else [],
        if x.state = t.target.goal then 0 else x.recovery) ∧ y.state = x.state := ⟨_, rfl, rfl, rfl⟩
  obtain ⟨haimed, hst⟩ := hstored
  simp only [Port.aim, Prod.mk.injEq] at haimed
  obtain ⟨htar, hstamp, hwait, hrec⟩ := haimed
  have haim := carriedOut_aim (x := x) (t := t) y hst htar x.target beat
  unfold Port.targetTaken
  dsimp only
  rw [answerTo_taken h, hy]
  by_cases hg : x.state = t.target.goal
  · rw [if_pos hg, if_neg (by simp), if_pos hg, haim, sentOff_of_goal hg]
    simp [Port.aim, htar, hstamp, hwait, hrec, hg]
  · rw [if_neg hg, if_neg hg]
    cases hs : x.sentOff t with
    | true => simpa [hs, htar, hstamp] using haim
    | false =>
      have hjoin : ∀ z : Port, (z.waiterJoined ref).aim = (z.target, z.stamp, z.waiters ++ ref.toList, z.recovery) :=
        fun _ => rfl
      rw [hs, if_neg Bool.false_ne_true] at haim
      simp only [Bool.false_eq_true, if_false, if_true, hjoin]
      cases hc : x.cutAtOnce t <;> rw [hc] at haim <;>
        simp_all [Port.aim]

end TargetSets

/-! ## The entries that wait -/

section Entries

variable (p : PortNo) (s : State) (e : EntryNo)

theorem cutToOff_entry :
    (cutToOff p s).entry e = if (s.port p).target = .off then s.entryAfter p .reached e else s.entry e := by
  have haim : (((s.port p).gaveUp).railCut .cut).aim = (s.port p).aim := by simp
  rw [cutToOff, enterOff_entry, cutRail_port, giveUpHoldings_port, Port.target_of_aim haim,
    entryAfter_congr (s := s) _ _ (by simp) (by simp)]
  simp

@[simp] theorem callAgain_entry (old : Target) : (callAgain p old s).entry e = s.entry e :=
  (PortRun.refl.callAgain old).entry e

@[simp] theorem waitFor_entry (t : Target) (ms : Nat) : (waitFor p t ms s).entry e = s.entry e := rfl

@[simp] theorem joinWaiters_entry (ref : Option EntryNo) : (joinWaiters p ref s).entry e = s.entry e := by
  cases ref <;> rfl

/-- A target acted on gives an outcome where it reaches OFF at once (Table 1-3, R14). -/
theorem actOnTarget_entry (old : Target) :
    (actOnTarget p old s).entry e =
      if (s.port p).target = .off ∧ ((s.port p).state = .queued ∨ (s.port p).state.isWarming = true) then
        s.entryAfter p .reached e
      else s.entry e := by
  have hoff : ∀ u : State, (u.port p).aim = (s.port p).aim → (∀ d, u.entry d = s.entry d) →
      (s.port p).target = .off → (enterOff p u).entry e = s.entryAfter p .reached e := by
    intro u haim hu htar
    rw [enterOff_entry, Port.target_of_aim haim, if_pos htar]
    exact entryAfter_congr _ _ (congrArg (·.2.2.1) haim) (hu e)
  unfold actOnTarget
  dsimp only
  cases hst : (s.port p).state
  case off => by_cases htar : (s.port p).target = .off <;> simp [htar, PState.isWarming]
  case queued =>
    by_cases htar : (s.port p).target = .off
    · simp only [htar, if_true, true_and, true_or]
      exact hoff _ (by simp) (fun _ => rfl) htar
    · simp [htar]
  case powering | booting =>
    by_cases htar : (s.port p).target = .off
    · simp only [htar, if_true]
      rw [hoff _ (by simp) (by simp) htar]
      simp [PState.isWarming]
    · simp [htar]
  all_goals simp [PState.isWarming]

/-- A target set carried out gives an outcome where it switches the port off at once (R12, R33). -/
theorem carryOut_entry {x : Port} (t : TargetSet) (old : Target) (hst : (s.port p).state = x.state)
    (htar : (s.port p).target = t.target) :
    (carryOut p t old s).entry e = if x.sentOff t then s.entryAfter p .reached e else s.entry e := by
  have hset : (s.modPort p fun x => { x with cut := t.cut }).entryAfter p .reached e = s.entryAfter p .reached e :=
    entryAfter_congr _ _ (by simp) rfl
  have hrail : (s.port p).railOn = x.railOn := by unfold Port.railOn; rw [hst]
  have hcut : (t.cut = true ∧ ((s.port p).state = .queued ∨ (s.port p).state.railOn = true)) ↔
      x.cutAtOnce t = true := by simp [Port.cutAtOnce, Port.railOn, hst]
  unfold carryOut
  simp only [port_modPort_self, entry_modPort, Port.railOn, hcut]
  split <;> rename_i hc
  · rw [cutToOff_entry, port_modPort_self, hset, htar, sentOff_of_cut hc]
    simp
  · rw [actOnTarget_entry, port_modPort_self, hset, htar, hst]
    simp only [sentOff_of_not_cut hc, entry_modPort]

theorem storeTarget_entry (g : Target) :
    (storeTarget p g s).entry e =
      if g = (s.port p).target then s.entry e else s.entryAfter p .superseded e := by
  unfold storeTarget; split <;> simp

end Entries

/-- The entries after a target set that is taken: the waiters on another target are superseded, those on the same
target have reached OFF, where it switches the port off at once (R12, R14). -/
theorem takeTarget_entry {t : TargetSet} (ref : Option EntryNo) (e : EntryNo) :
    (takeTarget p t ref s).entry e =
      if t.target = (s.port p).target then
        if (s.port p).sentOff t then s.entryAfter p .reached e else s.entry e
      else s.entryAfter p .superseded e := by
  have hstored : ((storeTarget p t.target (s.drawStamp p)).port p).state = (s.port p).state ∧
      ((storeTarget p t.target (s.drawStamp p)).port p).target = t.target ∧
      ((storeTarget p t.target (s.drawStamp p)).port p).waiters =
        if t.target = (s.port p).target then (s.port p).waiters else [] := by
    rw [storeTarget_port, drawStamp_port]; exact ⟨rfl, rfl, rfl⟩
  obtain ⟨hst, htar, hwait⟩ := hstored
  have hcarried : (takeTarget p t ref s).entry e =
      (carryOut p t (s.port p).target (storeTarget p t.target (s.drawStamp p))).entry e := by
    unfold takeTarget; dsimp only; split <;> simp
  have hentry : (storeTarget p t.target (s.drawStamp p)).entry e =
      if t.target = (s.port p).target then s.entry e else s.entryAfter p .superseded e := by
    rw [storeTarget_entry, drawStamp_port, entry_drawStamp,
      entryAfter_congr (s := s) (u := s.drawStamp p) _ _ (by simp) rfl]
  rw [hcarried, carryOut_entry _ _ _ _ _ hst htar]
  by_cases heq : t.target = (s.port p).target
  · rw [if_pos heq] at hwait hentry ⊢
    rw [entryAfter_congr (s := s) _ _ hwait hentry, hentry]
  · rw [if_neg heq] at hwait hentry ⊢
    rw [entryAfter_of_nil _ _ hwait, hentry, ite_self]

/-! ## The answer of a target set -/

theorem declines_eq_none {x : Port} {t : TargetSet} (habsent : x.state.isAbsent = false)
    (hfault : x.state.isFaulted = false) (hresume : t.resume = true → x.target = .paused) :
    declines x t = none := by
  unfold declines; simp [habsent, hfault]; exact hresume

/-- A target set that is taken changes its own port alone, but for the stamp counter and the waiting entries. -/
theorem targetSet_otherPorts (t : TargetSet) (ref : Option EntryNo) :
    OtherPortsKept p s (targetSet p t ref s).2 :=
  ((PortStep.refl p s).targetSet t ref).others

theorem takeTarget_stampCounter (t : TargetSet) (ref : Option EntryNo) :
    (takeTarget p t ref s).stampCounter = s.stampCounter + 1 := by
  have hr : (carryOut p t (s.port p).target (storeTarget p t.target (s.drawStamp p))).stampCounter =
      s.stampCounter + 1 := ((PortRun.refl.storeTarget _).carryOut _ _).stampCounter
  unfold takeTarget
  dsimp only
  split
  · cases ref <;> simpa [joinWaiters] using hr
  · exact hr

theorem sentOff_iff (x : Port) (t : TargetSet) :
    x.sentOff t = true ↔
      t.target = .off ∧
        (x.state = .queued ∨ x.state = .powering ∨ x.state = .booting ∨ (t.cut = true ∧ x.railOn = true)) := by
  have hwarm : x.state.isWarming = true ↔ x.state = .powering ∨ x.state = .booting := by
    cases x.state <;> simp [PState.isWarming]
  simp only [Port.sentOff, Bool.and_eq_true, Bool.or_eq_true, decide_eq_true_eq, hwarm, or_assoc]

theorem not_cutAtOnce {x : Port} {t : TargetSet} (hs : x.sentOff t = false)
    (h : t.cut = true → t.target = .off) : x.cutAtOnce t = false := by
  by_contra hc
  have hc : x.cutAtOnce t = true := by simpa using hc
  have hcut : t.cut = true := by
    unfold Port.cutAtOnce at hc
    exact (Bool.and_eq_true _ _ ▸ hc).1
  rw [sentOff_of_cut hc, h hcut] at hs
  cases hs

/-- Settles O43: the port's wish and the entries after a target set, by its answer. -/
theorem targetSetsAnswerByTable85 : Obligations.TargetSetsAnswerByTable85 := by
  intro p ts ref s x r declined
  have hanswer : r.1 = answerTo x ts := targetSet_answer p s ts ref
  have hrefused : ∀ o, declines x ts = some o → r.1 = .decided o ∧ r.2 = s := fun o ho =>
    ⟨by rw [hanswer, answerTo, ho], targetSet_declined p s ho ref⟩
  have habsent : x.state.isAbsent = true → declines x ts = some .noCamera := fun h => by simp [declines, h]
  have hfaulted : x.state.isFaulted = true → declines x ts = some .isFaulted := fun h => by
    cases hst : x.state <;> simp_all [declines, PState.isAbsent, PState.isFaulted]
  have hnotPaused : x.state.isAbsent = false → x.state.isFaulted = false → ts.resume = true → x.target ≠ .paused →
      declines x ts = some .notPaused := fun h₁ h₂ h₃ h₄ => by simp [declines, h₁, h₂, h₃, h₄]
  refine ⟨fun h => (hrefused _ (habsent h)).1, fun h => (hrefused _ (hfaulted h)).1,
    fun h₁ h₂ h₃ h₄ => (hrefused _ (hnotPaused h₁ h₂ h₃ h₄)).1, fun hd => ?_, fun hd => ?_⟩
  · by_cases h₁ : x.state.isAbsent = true
    · exact (hrefused _ (habsent h₁)).2
    · by_cases h₂ : x.state.isFaulted = true
      · exact (hrefused _ (hfaulted h₂)).2
      · obtain ⟨h₃, h₄⟩ : ts.resume = true ∧ x.target ≠ .paused := by simpa [declined, h₁, h₂] using hd
        exact (hrefused _ (hnotPaused (by simpa using h₁) (by simpa using h₂) h₃ h₄)).2
  · have htaken : declines x ts = none := by
      simp only [declined, Bool.or_eq_false_iff, Bool.and_eq_false_iff, decide_eq_false_iff_not, not_not] at hd
      obtain ⟨⟨h₁, h₂⟩, h₃⟩ := hd
      exact declines_eq_none h₁ h₂ fun hr => h₃.resolve_left (by simp [hr])
    have hstate : r.2 = s.atPort p (takeTarget p ts ref) := targetSet_taken p s htaken ref
    have haim := targetTaken_aim (x := x) ref (s.stampCounter + 1) s.cadence.beat htaken
    have hport : r.2.port p = x.targetTaken ts ref (s.stampCounter + 1) s.cadence.beat := by
      rw [hstate]; simp [x]
    have hentry : ∀ e, r.2.entry e = _ := fun e =>
      (congrArg (·.entry e) hstate).trans ((quiet_atPort_entry _ _ _ e).trans (takeTarget_entry ref e))
    rw [← hport] at haim
    have hstamp : r.2.stampCounter = s.stampCounter + 1 := by
      rw [hstate, atPort_stampCounter, takeTarget_stampCounter]
    have hothers : OtherPortsKept p s r.2 := targetSet_otherPorts ts ref
    have hsuperseded : ts.target ≠ x.target → WaitersReceive p .superseded s r.2 := fun hne e => by
      rw [hentry, if_neg hne]; rfl
    rw [hanswer, answerTo_taken htaken]
    refine ⟨by simp only [sentOff_iff], hstamp, ?_⟩
    by_cases hgoal : x.state = ts.target.goal
    · rw [if_pos hgoal] at haim ⊢
      obtain ⟨htar, hst, hwait, hrec⟩ := by simpa only [Port.aim, Prod.mk.injEq] using haim
      refine ⟨hst, htar, hothers, by simp, by simp, fun _ => ⟨hrec, hwait⟩, by simp, hsuperseded, fun heq => ?_⟩
      rw [if_neg (by simp)]
      exact inflight_of_entries fun e => by rw [hentry, if_pos heq, sentOff_of_goal hgoal, if_neg Bool.false_ne_true]
    · rw [if_neg hgoal] at haim ⊢
      cases hsent : x.sentOff ts with
      | true =>
        rw [hsent, if_pos rfl] at haim
        obtain ⟨htar, hst, hwait, hrec⟩ := by simpa only [Port.aim, Prod.mk.injEq] using haim
        rw [if_pos rfl]
        refine ⟨hst, htar, hothers, by simp, by simp, by simp, fun _ => ⟨hwait, hrec⟩, hsuperseded, fun heq => ?_⟩
        rw [if_pos rfl]
        exact fun e => by rw [hentry, if_pos heq, hsent, if_pos rfl]; rfl
      | false =>
        rw [hsent, if_neg Bool.false_ne_true] at haim
        obtain ⟨htar, hst, hwait, hrec⟩ := by simpa only [Port.aim, Prod.mk.injEq] using haim
        rw [if_neg Bool.false_ne_true]
        refine ⟨hst, htar, hothers, fun _ => hwait, fun _ hcut => ?_, by simp, by simp, hsuperseded, fun heq => ?_⟩
        · rw [hrec, not_cutAtOnce hsent hcut, if_neg Bool.false_ne_true]
        · rw [if_neg (by simp)]
          exact inflight_of_entries fun e => by rw [hentry, if_pos heq, hsent, if_neg Bool.false_ne_true]

end Sys2Proof.Machine
end

section
/-! What a target set does to its port (O44). -/

set_option Elab.async false

namespace Sys2Proof.Machine

variable {p : PortNo} {s : State}

namespace Port

/-- The port with a target set stored (R12). -/
def storedFor (t : TargetSet) (stamp : Word) (x : Port) : Port := { x with stamp := stamp }.targetStored t.target

/-- The port that a target set or a cut switches off in its own event (R19). -/
def switchedOff (why : EndReason) (handed : List GovMsg) (beat : Word) (x : Port) : Port :=
  { x with
    state := .off, stateBeat := beat, timer := none, silence := 0, keepDue := false, stepClaim := false
    cursor := 0, restart := false, bootAttempts := 0, tripCount := 0, recovery := 0, waiters := [], cut := false
    endReason := why, toGovernor := x.toGovernor ++ handed, lane := if x.railOn then .closed else x.lane
    wakePulse := if x.railOn then none else x.wakePulse }

@[simp] theorem storedFor_state (t : TargetSet) (stamp : Word) (x : Port) :
    (x.storedFor t stamp).state = x.state := rfl

@[simp] theorem storedFor_target (t : TargetSet) (stamp : Word) (x : Port) :
    (x.storedFor t stamp).target = t.target := rfl

@[simp] theorem storedFor_railOn (t : TargetSet) (stamp : Word) (x : Port) :
    (x.storedFor t stamp).railOn = x.railOn := rfl

variable {x : Port} {t : TargetSet} (old : Target) (beat : Word)

/-- The wait of PAUSING and RESUMING after a target set (R4). -/
def waitSet (x : Port) : Port :=
  match x.state with
  | .pausing => x.waitedFor .paused Config.holdLimitMs
  | .resuming => x.waitedFor .awake x.resumeMs
  | _ => x

/-! ### The four ways of a target set -/

theorem carriedOut_of_queued (hst : x.state = .queued) (htar : x.target = .off) :
    x.carriedOut t old beat = x.switchedOff x.endReason [.withdrawal] beat := by
  cases hc : t.cut <;>
    simp [carriedOut, cutOff, targetActed, gaveUp, told, railCut, railOn, wentOff, countsCleared, entered,
      reachedTarget, switchedOff, hst, htar, hc, PState.railOn, PState.isAlive]

theorem carriedOut_of_warming (hst : x.state = .powering ∨ x.state = .booting) (htar : x.target = .off) :
    x.carriedOut t old beat = x.switchedOff (if t.cut then .cut else .cancelled) [.release] beat := by
  rcases hst with hst | hst <;> cases hc : t.cut <;>
    simp [carriedOut, cutOff, targetActed, gaveUp, told, railCut, railOn, wentOff, countsCleared, entered,
      reachedTarget, switchedOff, hst, htar, hc, PState.railOn, PState.isAlive, PState.isWarming]

theorem carriedOut_of_cut (hst : x.state.isAlive = true ∨ x.state = .stopping) (htar : x.target = .off)
    (hc : t.cut = true) : x.carriedOut t old beat = x.switchedOff .cut [] beat := by
  have hon : x.railOn = true := by
    unfold railOn; rcases hst with h | h
    · exact railOn_of_alive h
    · rw [h]; rfl
  have hgave : ∀ c, ({ x with cut := c } : Port).gaveUp = { x with cut := c } := fun c => by
    have hq : x.state ≠ .queued := state_ne_of_railOn hon rfl
    have hw : x.state.isWarming = false := by
      rcases hst with h | h
      · exact not_warming_of_alive h
      · rw [h]; rfl
    simp [gaveUp, hq, hw]
  have hon' : ∀ c, ({ x with cut := c } : Port).railOn = true := fun _ => hon
  simp only [carriedOut, hc, cutOff, hgave, wentOff_of_on _ _ (hon' _)]
  simp [hon', htar, dark, switchedOff]

theorem carriedOut_of_off (hst : x.state = .off) (htar : x.target ≠ .off) :
    x.carriedOut t old beat =
      { x with
        state := .queued, stateBeat := beat, timer := none, silence := 0, keepDue := false, stepClaim := false
        cursor := 0, restart := false, toGovernor := x.toGovernor ++ [.claim], cut := false } := by
  simp [carriedOut, targetActed, queuedUp, told, entered, railOn, hst, htar, PState.railOn, PState.isAlive]

theorem carriedOut_of_waiting (hst : x.state = .queued ∨ x.state = .powering ∨ x.state = .booting)
    (htar : x.target ≠ .off) (hc : t.cut = false) : x.carriedOut t old beat = { x with cut := false } := by
  rcases hst with hst | hst | hst <;> simp [carriedOut, targetActed, hst, htar, hc]

theorem carriedOut_of_stopping (hst : x.state = .stopping) (hc : t.cut = false) :
    x.carriedOut t old beat = { x with cut := false } := by
  simp [carriedOut, targetActed, hst, hc]

theorem waitSet_timer_of_pausing (hst : x.state = .pausing) :
    x.waitSet.timer =
      if x.target = .paused then (if x.timer.isSome ∨ x.lane.stepInFlight then x.timer else some 1000) else none := by
  unfold waitSet; rw [hst]; rfl

theorem waitSet_timer_of_resuming {c : ClassRecord} (hst : x.state = .resuming) (hc : x.classRecord = some c) :
    x.waitSet.timer =
      if x.target = .awake then
        (if x.timer.isSome ∨ x.lane.stepInFlight then x.timer else some (c.resumeLimit.toNat * 10))
      else none := by
  have hms : x.resumeMs = c.resumeLimit.toNat * 10 := by simp [resumeMs, hc]
  unfold waitSet; rw [hst, ← hms]; rfl

/-- What is called for does not look at the timer. -/
theorem calledAgain_timed (x : Port) (d : Deadline) (c : Bool) :
    ({ x with timer := d, cut := c } : Port).calledAgain old =
      { x.calledAgain old with timer := d, cut := c } := by
  have hchoose : ∀ b, ({ x with timer := d, cut := c, stepClaim := b } : Port).chooseStep = x.chooseStep := fun _ => rfl
  have hchoose' : ∀ b, ({ x with stepClaim := b } : Port).chooseStep = x.chooseStep := fun _ => rfl
  simp only [calledAgain, claimRaised, granted, hchoose, hchoose']
  split_ifs
  · rfl
  · split <;> rfl
  all_goals rfl

theorem carriedOut_of_alive (hst : x.state.isAlive = true) (hc : t.cut = false) :
    x.carriedOut t old beat = { x.calledAgain old with timer := x.waitSet.timer, cut := false } := by
  have hacted : x.carriedOut t old beat =
      { ({ x with cut := false } : Port).waitSet.calledAgain old with cut := false } := by
    cases hs : x.state <;> simp_all [carriedOut, targetActed, waitSet, PState.isAlive]
  have hwait : ({ x with cut := false } : Port).waitSet = { x with timer := x.waitSet.timer, cut := false } := by
    unfold waitSet; dsimp only; split <;> rfl
  rw [hacted, hwait, calledAgain_timed]

/-! ### A call for another step -/

variable (x)

/-- A call for another step touches the lane and the step claim alone (R62). -/
theorem calledAgain_eq :
    x.calledAgain old =
      { x with lane := (x.calledAgain old).lane, stepClaim := (x.calledAgain old).stepClaim } := by
  unfold calledAgain granted
  split_ifs
  · rfl
  · split <;> rfl
  all_goals rfl

/-- While the lane is taken, or nothing else is called for, the step claim alone is raised (R62). -/
theorem calledAgain_busy (h : x.lane ≠ .free ∨ stepCall x.state x.target = stepCall x.state old) :
    x.calledAgain old =
      { x with
        stepClaim := x.stepClaim ||
          decide (stepCall x.state x.target ≠ stepCall x.state old) && (stepCall x.state x.target).isSome } := by
  by_cases hsame : stepCall x.state x.target = stepCall x.state old
  · simp [calledAgain, hsame]
  · have hl : x.claimRaised.lane ≠ .free := h.resolve_right hsame
    cases hsome : (stepCall x.state x.target).isSome
    · simp [calledAgain, hsame, hsome]
    · rw [calledAgain, if_pos ⟨hsame, hsome⟩, granted_of_not_free hl]
      simp [claimRaised, hsame, hsome]

/-- At a free lane the step called for begins in the event (R61, R62). -/
theorem calledAgain_free (hst : x.state = .ready ∨ x.state = .pausing ∨ x.state = .paused ∨ x.state = .resuming)
    (hl : x.lane = .free) (hk : x.keepDue = false)
    (hcall : stepCall x.state x.target ≠ stepCall x.state old) :
    (x.calledAgain old).lane =
      (match x.state, x.target with
        | _, .off => .sending (newPhrase .halt []) 2
        | .ready, .paused => .sending (newPhrase .hold []) 2
        | .resuming, .paused => .sending (newPhrase .hold []) 2
        | .pausing, .awake => .sending (newPhrase .release []) 2
        | .paused, .awake => .sending (newPhrase .release []) 2
        | _, _ => .free) := by
  have hcalled : x.calledAgain old =
      if (stepCall x.state x.target).isSome then x.claimRaised.granted else x := by simp [calledAgain, hcall]
  rw [hcalled]
  rcases hst with hst | hst | hst | hst <;> cases htar : x.target <;>
    simp [claimRaised, granted, chooseStep, stepPayload, stepCall, hst, htar, hl, hk, Config.ackWaitMs]

end Port

/-! ## Registers -/

section Registers

variable (p : PortNo) (s : State)

@[simp] theorem callAgain_regs (old : Target) : (callAgain p old s).regs = s.regs := by
  unfold callAgain; dsimp only; split_ifs <;> simp

@[simp] theorem waitFor_regs (t : Target) (ms : Nat) : (waitFor p t ms s).regs = s.regs := rfl

@[simp] theorem storeTarget_regs (t : Target) : (storeTarget p t s).regs = s.regs := by
  unfold storeTarget; split_ifs <;> simp

@[simp] theorem joinWaiters_regs (ref : Option EntryNo) : (joinWaiters p ref s).regs = s.regs := by
  cases ref <;> rfl

theorem takeTarget_regs (t : TargetSet) (ref : Option EntryNo) :
    (takeTarget p t ref s).regs =
      (carryOut p t (s.port p).target (storeTarget p t.target (s.drawStamp p))).regs := by
  unfold takeTarget; dsimp only; split_ifs <;> simp

variable {s}

theorem cutToOff_regs (h : (s.port p).state ≠ .off) : (cutToOff p s).regs = s.regs.caused 2 := by
  rw [cutToOff, enterOff_regs _ _ (by simpa using h)]
  simp

/-- The port moves when it acts on the target (Table 1-3). -/
def Port.movesFor (x : Port) : Bool :=
  (decide (x.target = .off) && (decide (x.state = .queued) || x.state.isWarming)) ||
    (decide (x.state = .off) && decide (x.target ≠ .off))

theorem actOnTarget_regs (old : Target) :
    (actOnTarget p old s).regs = if (s.port p).movesFor then s.regs.caused 2 else s.regs := by
  have hwarm : (s.port p).state.isWarming = true → (s.port p).target = .off →
      (enterOff p (giveUpHoldings p (cutRail p .cancelled s))).regs = s.regs.caused 2 := fun hw _ => by
    have ho : (s.port p).state ≠ .off := by rintro ho; rw [ho] at hw; cases hw
    rw [enterOff_regs _ _ (by simpa using ho)]
    simp
  unfold actOnTarget Port.movesFor
  dsimp only
  cases hst : (s.port p).state
  case off => by_cases htar : (s.port p).target = .off <;> simp [htar, hst, PState.isWarming]
  case queued =>
    by_cases htar : (s.port p).target = .off
    · simp only [htar, if_true]
      rw [enterOff_regs _ _ (by simp [hst, Port.told])]
      simp
    · simp [htar]
  case powering | booting =>
    by_cases htar : (s.port p).target = .off
    · simp only [htar, if_true]
      rw [hwarm (by rw [hst]; rfl) htar]
      simp [PState.isWarming]
    · simp [htar]
  all_goals simp [PState.isWarming]

/-- The registers after a target set is carried out (R12, R97). -/
theorem carryOut_regs (t : TargetSet) (old : Target) :
    (carryOut p t old s).regs =
      if (s.port p).cutAtOnce t || (s.port p).movesFor then s.regs.caused 2 else s.regs := by
  have hcut : (t.cut = true ∧ ((s.port p).state = .queued ∨ (s.port p).state.railOn = true)) ↔
      (s.port p).cutAtOnce t = true := by simp [Port.cutAtOnce, Port.railOn]
  unfold carryOut
  simp only [port_modPort_self, modPort_regs, Port.railOn, hcut]
  split <;> rename_i hc
  · have ho : (s.port p).state ≠ .off := by
      rintro ho; simp [Port.cutAtOnce, Port.railOn, ho, PState.railOn] at hc
    rw [cutToOff_regs _ (by simpa using ho)]
    simp [hc]
  · have hm : (({ s.port p with cut := t.cut } : Port)).movesFor = (s.port p).movesFor := rfl
    rw [actOnTarget_regs, port_modPort_self, hm]
    simp [hc]

end Registers

/-! ## The state after a target set -/

section Taken

variable {t : TargetSet} {ref : Option EntryNo}

/-- The port after a target set that is taken, but for its waiters (R12). -/
theorem targetSet_port (h : declines (s.port p) t = none) :
    ∃ w, (targetSet p t ref s).2.port p =
      { ((s.port p).storedFor t (s.stampCounter + 1)).carriedOut t (s.port p).target s.cadence.beat with
        waiters := w } := by
  rw [targetSet_taken _ _ h ref, atPort_port, takeTarget_port]
  unfold Port.targetTaken
  dsimp only
  split
  · exact ⟨_, rfl⟩
  · exact ⟨_, rfl⟩

theorem targetSet_regs (h : declines (s.port p) t = none) :
    (targetSet p t ref s).2.regs =
      if (s.port p).cutAtOnce t || ((s.port p).storedFor t (s.stampCounter + 1)).movesFor then s.regs.caused 2
      else s.regs := by
  rw [targetSet_taken _ _ h ref, atPort_regs, takeTarget_regs, carryOut_regs, storeTarget_port, drawStamp_port]
  simp
  rfl

/-- The port that a target set leaves after it switched the port off (R19). -/
theorem targetSet_off {why : EndReason} {handed : List GovMsg} (h : declines (s.port p) t = none)
    (hsent : (s.port p).sentOff t = true)
    (hout : ((s.port p).storedFor t (s.stampCounter + 1)).carriedOut t (s.port p).target s.cadence.beat =
      ((s.port p).storedFor t (s.stampCounter + 1)).switchedOff why handed s.cadence.beat) :
    (targetSet p t ref s).2.port p =
      ((s.port p).storedFor t (s.stampCounter + 1)).switchedOff why handed s.cadence.beat := by
  obtain ⟨w, hport⟩ := targetSet_port (ref := ref) h
  have haim := targetTaken_aim ref (s.stampCounter + 1) s.cadence.beat h
  have hgoal : (s.port p).state ≠ t.target.goal := fun hg => by
    rw [sentOff_of_goal hg] at hsent; cases hsent
  have htaken : (targetSet p t ref s).2.port p =
      (s.port p).targetTaken t ref (s.stampCounter + 1) s.cadence.beat := by
    rw [targetSet_taken _ _ h ref, atPort_port, takeTarget_port]
  rw [if_neg hgoal, if_pos hsent, ← htaken] at haim
  have hw : w = [] := by
    have := congrArg (·.2.2.1) haim
    rw [hport] at this
    exact this
  rw [hport, hout, hw]
  rfl

theorem targetSet_regs_off (h : declines (s.port p) t = none) (hsent : (s.port p).sentOff t = true) :
    (targetSet p t ref s).2.regs = s.regs.caused 2 := by
  rw [targetSet_regs h, if_pos]
  cases hc : (s.port p).cutAtOnce t with
  | true => rfl
  | false =>
    obtain ⟨htar, hst⟩ := (sentOff_of_not_cut (by simp [hc])).1 hsent
    rcases hst with hq | hw
    · simp [Port.movesFor, htar, hq]
    · simp [Port.movesFor, htar, hw]

/-- A port in an alive state or STOPPING stays, unless it is cut (Table 1-3). -/
theorem targetSet_regs_stay (h : declines (s.port p) t = none) (hcut : t.cut = false)
    (hst : ((s.port p).state.isAlive = true ∨ (s.port p).state = .stopping) ∨
      (((s.port p).state = .queued ∨ (s.port p).state = .powering ∨ (s.port p).state = .booting) ∧
        t.target ≠ .off)) :
    (targetSet p t ref s).2.regs = s.regs := by
  rw [targetSet_regs h, if_neg]
  rcases hst with (ha | hstop) | ⟨hwait, htar⟩
  · have ho : (s.port p).state ≠ .off := by rintro ho; rw [ho] at ha; cases ha
    have hq : (s.port p).state ≠ .queued := by rintro hq; rw [hq] at ha; cases ha
    simp [Port.cutAtOnce, Port.movesFor, hcut, ho, hq, not_warming_of_alive ha]
  · simp [Port.cutAtOnce, Port.movesFor, hcut, hstop, PState.isWarming]
  · have ho : (s.port p).state ≠ .off := by rintro ho; rw [ho] at hwait; simp at hwait
    simp [Port.cutAtOnce, Port.movesFor, hcut, htar, ho]

end Taken

/-! ## The obligation -/

/-- Settles O44, each state's row by the record that the target set leaves. -/
theorem targetSetsActByTable13 : Obligations.TargetSetsActByTable13 := by
  intro p ts ref s h x t toOff stays
  obtain ⟨w, hport⟩ := targetSet_port (ref := ref) h
  have hsent : ∀ why handed, x.sentOff ts = true → x.state ≠ .off →
      (x.storedFor ts (s.stampCounter + 1)).carriedOut ts x.target s.cadence.beat =
        (x.storedFor ts (s.stampCounter + 1)).switchedOff why handed s.cadence.beat →
      toOff why handed ∧ (x.railOn = true → (t.port p).lane = .closed) := fun why handed hs hne hout => by
    have hoff := targetSet_off (ref := ref) h hs hout
    have hregs := targetSet_regs_off (ref := ref) h hs
    refine ⟨?_, fun hon => ?_⟩
    · simp only [toOff, t, hoff]
      exact ⟨rfl, rfl, rfl, rfl, rfl, rfl, rfl, rfl, rfl, rfl, hregs⟩
    · simp only [t, hoff, Port.switchedOff, Port.storedFor_railOn]
      exact if_pos hon
  have hstays : ∀ y : Port, t.port p = y → y.state = x.state → y.endReason = x.endReason →
      y.toGovernor = x.toGovernor → y.stateBeat = x.stateBeat → t.regs = s.regs → stays := by
    rintro y hy h₁ h₂ h₃ h₄ hregs
    simp only [stays, hy]
    exact ⟨h₁, h₂, h₃, h₄, hregs⟩
  refine ⟨fun hst htar => ?_, fun hst htar => ?_, fun hst htar => ?_, fun hst htar hcut => ?_, fun hst hcut => ?_,
    fun hst htar hcut => ?_, fun hst hcut => ?_, fun hst hcut => ?_, fun c hst hcut hc => ?_,
    fun hst hcut hbusy => ?_, fun hst hcut hl hk hcall => ?_⟩
  · rw [Port.carriedOut_of_off (x := x.storedFor ts _) _ _ hst htar] at hport
    simp only [t, hport]
    refine ⟨trivial, rfl, rfl, ?_⟩
    rw [causesSet_iff, targetSet_regs h, if_pos]
    simp [Port.movesFor, show (s.port p).state = .off from hst, htar]
  · exact (hsent _ _ ((sentOff_iff _ _).2 ⟨htar, .inl hst⟩) (by rw [hst]; decide)
      (Port.carriedOut_of_queued _ _ hst htar)).1
  · obtain ⟨hoff, hlane⟩ := hsent _ _ ((sentOff_iff _ _).2 ⟨htar, by tauto⟩)
      (by rcases hst with h | h <;> rw [h] <;> decide) (Port.carriedOut_of_warming _ _ hst htar)
    exact ⟨hoff, hlane (railOn_of_warming (by rcases hst with h | h <;> rw [h] <;> rfl))⟩
  · have hon : x.railOn = true := by
      rcases hst with h | h
      · exact railOn_of_alive h
      · unfold Port.railOn; rw [h]; rfl
    obtain ⟨hoff, hlane⟩ := hsent _ _ ((sentOff_iff _ _).2 ⟨htar, .inr (.inr (.inr ⟨hcut, hon⟩))⟩)
      (Port.state_ne_of_railOn hon rfl) (Port.carriedOut_of_cut _ _ hst htar hcut)
    exact ⟨hoff, hlane hon⟩
  · rcases hst with ha | hstop
    · rw [Port.carriedOut_of_alive (x := x.storedFor ts _) _ _ ha hcut, Port.calledAgain_eq] at hport
      exact hstays _ hport rfl rfl rfl rfl (targetSet_regs_stay h hcut (.inl (.inl ha)))
    · rw [Port.carriedOut_of_stopping (x := x.storedFor ts _) _ _ hstop hcut] at hport
      exact hstays _ hport rfl rfl rfl rfl (targetSet_regs_stay h hcut (.inl (.inr hstop)))
  · rw [Port.carriedOut_of_waiting (x := x.storedFor ts _) _ _ hst htar hcut] at hport
    refine ⟨hstays _ hport rfl rfl rfl rfl (targetSet_regs_stay h hcut (.inr ⟨hst, htar⟩)), ?_, ?_⟩ <;>
      simp only [t, hport] <;> rfl
  · rw [Port.carriedOut_of_stopping (x := x.storedFor ts _) _ _ hst hcut] at hport
    simp only [t, hport]
    exact ⟨rfl, rfl⟩
  · have ha : x.state.isAlive = true := by rw [hst]; rfl
    rw [Port.carriedOut_of_alive (x := x.storedFor ts _) _ _ ha hcut] at hport
    simp only [t, hport]
    exact Port.waitSet_timer_of_pausing (x := x.storedFor ts _) hst
  · have ha : x.state.isAlive = true := by rw [hst]; rfl
    rw [Port.carriedOut_of_alive (x := x.storedFor ts _) _ _ ha hcut] at hport
    simp only [t, hport]
    exact Port.waitSet_timer_of_resuming (x := x.storedFor ts _) hst hc
  · rw [Port.carriedOut_of_alive (x := x.storedFor ts _) _ _ hst hcut,
      Port.calledAgain_busy (x.storedFor ts _) _ hbusy] at hport
    simp only [t, hport]
    exact ⟨rfl, rfl⟩
  · have ha : x.state.isAlive = true := by rcases hst with h | h | h | h <;> rw [h] <;> rfl
    rw [Port.carriedOut_of_alive (x := x.storedFor ts _) _ _ ha hcut] at hport
    simp only [t, hport]
    exact Port.calledAgain_free (x.storedFor ts _) _ hst hl hk hcall

end Sys2Proof.Machine
end

section
/-! The resets (O3, O4, O60). -/

set_option Elab.async false

namespace Sys2Proof.Machine

variable {s : State}

/-! ## The reset state -/

@[simp] theorem reset_port (p : PortNo) : State.reset.port p = Port.reset := by
  simp [State.reset, State.port]

@[simp] theorem reset_entry (e : EntryNo) : State.reset.entry e = none := by
  simp [State.reset, State.entry]

@[simp] theorem reset_group (g : GroupNo) : State.reset.group g = { defn := none, active := 0 } := by
  simp [State.reset, State.group]

@[simp] theorem reset_sweep (r : SweepNo) : State.reset.sweep r = none := by
  simp [State.reset, State.sweep]

@[simp] theorem reset_binding (n : LineNo) : State.reset.binding n = none := by
  simp [State.reset, State.binding]

@[simp] theorem reset_line (n : LineNo) : State.reset.line n = Line.reset := by
  simp [State.reset, State.line]

theorem reset_serialOf (x : Slot) : State.reset.writer.serialOf x = 0 := by
  cases x <;> simp [State.reset, Writer.serialOf]

/-- Settles O3, block by block. -/
theorem resetLeavesTheManualsValues : Obligations.ResetLeavesTheManualsValues := by
  refine ⟨fun p => ?_, rfl, rfl, rfl, rfl, rfl, rfl, by decide, rfl, rfl, rfl, rfl, rfl, rfl, rfl, rfl, rfl, rfl,
    reset_entry, fun g => ?_, reset_sweep, reset_binding, fun n => ?_, rfl, reset_serialOf, by decide, by decide,
    by decide, by decide, by decide, by decide, by decide, by decide⟩
  · rw [reset_port]
    decide
  · rw [reset_group]
    exact ⟨rfl, rfl⟩
  · rw [reset_line]
    decide

theorem reset_sound : Port.reset.sound = true := by decide

/-- Settles O60: each invariant evaluates to true on the reset state. -/
theorem resetIsSound : Obligations.ResetIsSound := by
  refine ⟨?_, ?_, ?_, ?_, ?_, ?_, ?_⟩
  · rw [portsSound_iff]
    exact fun p => by rw [reset_port]; exact (sound_iff _).1 reset_sound
  · decide
  · decide
  · decide
  · decide
  · decide
  · decide

/-! ## Power-on and rig reset -/

/-- A part that is detached, with nothing on the bus and nothing queued, is settled as it is. -/
theorem settle_of_idle {t : State} (hw : t.walker.state = .detached) (ha : t.walker.accesses = [])
    (hp : t.writer.posting = []) (hc : t.writer.current = none) : settle t = t := by
  have hfinish : finishDetach t = t := by simp [finishDetach, hw]
  have hwriter : { t.writer with posting := [], current := none } = t.writer := by rw [← hp, ← hc]
  have hsilence : silenceWriter t = t := by
    unfold silenceWriter
    rw [hw, if_neg (by decide), hc, Option.map_none, hwriter]
    rfl
  have hslot : beginSlotWrite t = t := by
    unfold beginSlotWrite; rw [hw, if_neg (by decide)]
  have hbegin : beginAccess t = t := by
    unfold beginAccess; rw [ha]; cases t.walker.current <;> rfl
  rw [settle, hfinish, hsilence, hslot, hbegin]

/-- An armed monitor compares the supply with its trip level alone (R104). -/
theorem compareSupply_of_armed (h : s.monitor.state = .armed) :
    compareSupply s =
      if s.monitor.supply < s.monitor.tripMv then
        (s.setMonitor { s.monitor with state := .tripped, tripsHanded := s.monitor.tripsHanded + 1 }).raise .supplyTrip
      else s := by
  simp [compareSupply, h]

theorem reset_tripMv (mv : Nat) : Monitor.tripMv { State.reset.monitor with supply := mv } = 10800 := by
  have hlevel : State.reset.monitor.tripLevel = 108 := rfl
  rw [Monitor.tripMv, hlevel]

/-- The part after a power-on or rig reset, with the supply as it is (R35, R110). -/
theorem resetPart_eq (regs : Registers) (hattn : regs.attn = 0) (s : State) :
    resetPart regs s =
      { State.reset with
        pending := s.pending
        acts := s.acts
        ports := s.ports.map Port.afterReset
        lines := s.lines.map Line.afterReset
        monitor :=
          { tripLevel := 108, supply := s.monitor.supply, levelsHanded := []
            state := if s.monitor.supply < 10800 then .tripped else .armed
            tripsHanded := if s.monitor.supply < 10800 then 1 else 0 }
        regs := { regs with attn := if s.monitor.supply < 10800 then 0x10 else 0 } } := by
  unfold resetPart
  rw [compareSupply_of_armed rfl]
  by_cases hlow : s.monitor.supply < 10800
  · rw [if_pos (by rw [reset_tripMv]; exact hlow)]
    simp only [if_pos hlow, State.raise, State.setMonitor, hattn]
    rfl
  · rw [if_neg (by rw [reset_tripMv]; exact hlow)]
    simp only [if_neg hlow, ← hattn]
    rfl

theorem resetPart_settled (regs : Registers) (hattn : regs.attn = 0) (s : State) :
    settle (resetPart regs s) = resetPart regs s := by
  rw [resetPart_eq regs hattn]
  exact settle_of_idle rfl rfl rfl rfl

/-- Settles O4: the reset state is compared with the supply, and is settled as it is. -/
theorem powerOnAndRigResetReturnEveryBlock : Obligations.PowerOnAndRigResetReturnEveryBlock := by
  intro s w after
  have hbit : (w ||| 0x008).getLsbD 3 = true := by simp
  refine ⟨?_, ?_⟩
  · change Host.Outcome.next (settle (resetPart powerOnRegs s.quiet)) = _
    rw [resetPart_settled _ rfl, resetPart_eq _ rfl]
    rfl
  · have hreset : exec (.rigReset w) s = .next (settle (rigReset s.quiet)) := by
      change Host.Outcome.next (settle (writeControl (w ||| 0x008) s.quiet)) = _
      rw [writeControl, if_pos hbit]
    rw [hreset, rigReset, resetPart_settled _ rfl, resetPart_eq _ rfl]
    cases hr : s.reader.state <;> simp only [quiet_reader, hr] <;> rfl

end Sys2Proof.Machine
end

section
/-! The Group Table and the Sweep Pool: each group's active sweep count is the number of records that name it, and
a link reset abandons the sweeps of requests alone (O5). -/

set_option Elab.async false

namespace Sys2Proof.Machine

variable {s t : State}

/-! ## How many sweeps name a group -/

/-- A record names the group. -/
def runsFor (g : GroupNo) (o : Option Sweep) : Bool := o.any fun x => x.group == g

theorem countP_items_set {α : Type} {n : Nat} (f : α → Bool) (t : Table α n) (i : Fin n) (a : α) :
    (t.set i a).items.countP f + (f (t.get i)).toNat = t.items.countP f + (f a).toNat := by
  have hlt : i.val < t.items.length := by rw [t.size]; exact i.isLt
  have hget : t.get i = t.items[i.val] := Table.get_eq_getElem t i
  have hset : (t.set i a).items = t.items.set i a := rfl
  rw [hset, List.countP_set hlt, hget]
  have hpos : f t.items[i.val] = true → 0 < t.items.countP f := fun h =>
    List.countP_pos_iff.2 ⟨_, List.getElem_mem hlt, h⟩
  cases hf : f t.items[i.val] <;> cases ha : f a <;> simp
  all_goals have := hpos hf; omega

theorem sweepsOf_setSweep (s : State) (r : SweepNo) (o : Option Sweep) (g : GroupNo) :
    (s.setSweep r o).sweepsOf g + (runsFor g (s.sweep r)).toNat = s.sweepsOf g + (runsFor g o).toNat :=
  countP_items_set (runsFor g) s.pool r o

theorem sweepsOf_congr (h : t.pool = s.pool) (g : GroupNo) : t.sweepsOf g = s.sweepsOf g := by
  unfold State.sweepsOf; rw [h]

@[simp] theorem sweepsOf_setGroup (s : State) (g h : GroupNo) (x : Group) :
    (s.setGroup g x).sweepsOf h = s.sweepsOf h := rfl

/-- Every group's active sweep count is the number of records that name it (R157). -/
def State.countsAgree (s : State) : Prop := ∀ g, (s.group g).active = s.sweepsOf g

theorem mem_allGroups (g : GroupNo) : g ∈ ([0, 1, 2, 3, 4, 5, 6, 7] : List GroupNo) := by
  fin_cases g <;> simp

theorem mem_allSweeps (r : SweepNo) : r ∈ allSweeps := by fin_cases r <;> simp [allSweeps]

theorem poolSound_iff (s : State) :
    s.poolSound = true ↔
      (∀ g, s.groupSound g = true) ∧ ∀ r x, s.sweep r = some x → s.sweepSound x = true := by
  simp only [State.poolSound, Bool.and_eq_true, List.all_eq_true, Option.all_eq_true]
  exact ⟨fun ⟨h, k⟩ => ⟨fun g => h g (mem_allGroups g), fun r x hx => k r (mem_allSweeps r) x hx⟩,
    fun ⟨h, k⟩ => ⟨fun g _ => h g, fun r _ x hx => k r x hx⟩⟩

theorem countsAgree_of_poolSound (h : s.poolSound = true) : s.countsAgree := fun g => by
  have hg := ((poolSound_iff s).1 h).1 g
  unfold State.groupSound at hg
  simp only [Bool.and_eq_true, beq_iff_eq] at hg
  exact hg.1

/-! ## Freeing a record -/

@[simp] theorem sweep_setGroup (s : State) (g : GroupNo) (x : Group) (r : SweepNo) :
    (s.setGroup g x).sweep r = s.sweep r := rfl

@[simp] theorem group_setSweep (s : State) (r : SweepNo) (o : Option Sweep) (g : GroupNo) :
    (s.setSweep r o).group g = s.group g := rfl

theorem freeSweep_sweep (r q : SweepNo) (x : Sweep) (s : State) :
    (freeSweep r x s).sweep q = if q = r then none else s.sweep q := by
  simp [freeSweep, sweep_setSweep]

theorem freeSweep_group (r : SweepNo) (x : Sweep) (s : State) (g : GroupNo) :
    (freeSweep r x s).group g =
      if g = x.group then { s.group x.group with active := (s.group x.group).active - 1 } else s.group g := by
  simp [freeSweep, group_setGroup]

theorem freeSweep_countsAgree {r : SweepNo} {x : Sweep} (h : s.countsAgree) (hx : s.sweep r = some x) :
    (freeSweep r x s).countsAgree := by
  intro g
  have hcount := sweepsOf_setSweep (s.setGroup x.group { s.group x.group with active := (s.group x.group).active - 1 })
    r none g
  rw [sweep_setGroup, hx, sweepsOf_setGroup] at hcount
  have hfree : (freeSweep r x s).sweepsOf g + (x.group == g).toNat = s.sweepsOf g := hcount
  have hg := h g
  rw [freeSweep_group]
  by_cases he : g = x.group
  · subst he
    rw [if_pos rfl]
    simp only [beq_self_eq_true, Bool.toNat_true] at hfree
    simp only
    omega
  · rw [if_neg he]
    have hne : (x.group == g) = false := by simpa using fun h => he h.symm
    rw [hne, Bool.toNat_false] at hfree
    omega

/-! ## Link reset -/

/-- Nothing but the Group Table and the Sweep Pool has changed. -/
def PoolOnly (s t : State) : Prop := t = { s with groups := t.groups, pool := t.pool }

theorem PoolOnly.trans {u : State} (h : PoolOnly s t) (k : PoolOnly t u) : PoolOnly s u := by
  unfold PoolOnly at *
  rw [k, h]

theorem freeSweep_poolOnly (r : SweepNo) (x : Sweep) (s : State) : PoolOnly s (freeSweep r x s) := rfl

/-- What a link reset leaves of a record: the sweep of a line (R172). -/
def keptAtLinkReset (o : Option Sweep) : Option Sweep :=
  match o with
  | some x => if x.fromRequest then none else some x
  | none => none

theorem keptAtLinkReset_eq (o : Option Sweep) :
    keptAtLinkReset o =
      match o with
      | some x => (match x.origin with | .request _ => none | .line _ => some x)
      | none => none := by
  rcases o with _ | ⟨_, _, _ | _, _, _, _, _, _, _⟩ <;> rfl

/-- One record's turn in the cancelling of the requests' sweeps (R172). -/
def cancelRequestSweep (r : SweepNo) (s : State) : State :=
  match s.sweep r with
  | some x => if x.fromRequest then freeSweep r x s else s
  | none => s

theorem cancelRequestSweep_sweep (r q : SweepNo) (s : State) :
    (cancelRequestSweep r s).sweep q = if q = r then keptAtLinkReset (s.sweep q) else s.sweep q := by
  unfold cancelRequestSweep keptAtLinkReset
  by_cases hq : q = r
  · subst hq
    cases hx : s.sweep q with
    | none => simp [hx]
    | some x => cases hf : x.fromRequest <;> simp [freeSweep_sweep, hf, hx]
  · rw [if_neg hq]
    split
    · split <;> simp [freeSweep_sweep, hq]
    · rfl

theorem cancelRequestSweep_countsAgree (r : SweepNo) (h : s.countsAgree) :
    (cancelRequestSweep r s).countsAgree := by
  unfold cancelRequestSweep
  split
  · split
    · exact freeSweep_countsAgree h ‹_›
    · exact h
  · exact h

theorem cancelRequestSweep_poolOnly (r : SweepNo) (s : State) : PoolOnly s (cancelRequestSweep r s) := by
  unfold cancelRequestSweep
  split
  · split
    · exact freeSweep_poolOnly _ _ _
    · rfl
  · rfl

theorem cancelRequestSweep_kept (r : SweepNo) (s : State) : SweepKept s (cancelRequestSweep r s) := by
  unfold cancelRequestSweep
  split
  · split
    · exact freeSweep_kept _ _ _
    · exact .refl s
  · exact .refl s

theorem cancelRequestSweeps_cons (r : SweepNo) (l : List SweepNo) (s : State) :
    cancelRequestSweeps (r :: l) s = cancelRequestSweeps l (cancelRequestSweep r s) := rfl

theorem keptAtLinkReset_twice (o : Option Sweep) : keptAtLinkReset (keptAtLinkReset o) = keptAtLinkReset o := by
  cases o with
  | none => rfl
  | some x => cases hf : x.fromRequest <;> simp [keptAtLinkReset, hf]

/-- The sweeps of requests in the listed records are cancelled; the others go on (R172). -/
theorem cancelRequestSweeps_sweep (l : List SweepNo) (s : State) (q : SweepNo) :
    (cancelRequestSweeps l s).sweep q = if q ∈ l then keptAtLinkReset (s.sweep q) else s.sweep q := by
  induction l generalizing s with
  | nil => simp [cancelRequestSweeps]
  | cons r l ih =>
    rw [cancelRequestSweeps_cons, ih, cancelRequestSweep_sweep]
    by_cases hr : q = r <;> by_cases hl : q ∈ l <;> simp [hr, hl, keptAtLinkReset_twice]

theorem cancelRequestSweeps_countsAgree (l : List SweepNo) (h : s.countsAgree) :
    (cancelRequestSweeps l s).countsAgree := by
  induction l generalizing s with
  | nil => exact h
  | cons r l ih => exact ih (cancelRequestSweep_countsAgree r h)

theorem cancelRequestSweeps_poolOnly (l : List SweepNo) (s : State) : PoolOnly s (cancelRequestSweeps l s) := by
  induction l generalizing s with
  | nil => rfl
  | cons r l ih => exact (cancelRequestSweep_poolOnly r s).trans (ih _)

theorem cancelRequestSweeps_kept (l : List SweepNo) (s : State) : SweepKept s (cancelRequestSweeps l s) := by
  induction l generalizing s with
  | nil => exact .refl s
  | cons r l ih => exact (cancelRequestSweep_kept r s).trans (ih _)

theorem linkReset_settled (s : State) : settle (linkReset s) = linkReset s := settle_of_idle rfl rfl rfl rfl

/-- Settles O5: the walker is detached at once, so the event ends as the reset leaves it; the pool's part is by
induction on the records. -/
theorem linkResetAbandonsRequestsOnly : Obligations.LinkResetAbandonsRequestsOnly := by
  intro s hpool
  have hexec : exec .linkReset s = .next (linkReset s.quiet) := by
    change Host.Outcome.next (settle (linkReset s.quiet)) = _
    rw [linkReset_settled]
  have honly := cancelRequestSweeps_poolOnly allSweeps s.quiet
  have hsweep := cancelRequestSweeps_sweep allSweeps s.quiet
  have hcounts := cancelRequestSweeps_countsAgree (s := s.quiet) allSweeps (countsAgree_of_poolSound hpool)
  have hdefn := (cancelRequestSweeps_kept allSweeps s.quiet).defns
  have hreset : linkReset s.quiet =
      { s.quiet with
        groups := (cancelRequestSweeps allSweeps s.quiet).groups
        pool := (cancelRequestSweeps allSweeps s.quiet).pool
        ports := s.ports.map fun x => { x with waiters := [] }
        walker := s.walker.afterLinkReset
        inflight := Table.replicate 8 none
        writer := { s.writer with posting := [], current := none }
        regs := linkResetRegs s.regs } := by
    unfold linkReset
    rw [honly]
    rfl
  refine ⟨_, hexec, ?_⟩
  rw [hreset]
  refine ⟨fun p => by simp [State.port], rfl, rfl, rfl, rfl, ⟨rfl, rfl⟩, rfl, rfl, fun e => by simp [State.entry],
    fun r => ?_, fun g => ⟨hdefn g, hcounts g⟩, rfl, rfl, rfl, fun x => by cases x <;> rfl, rfl⟩
  refine (hsweep r).trans ?_
  rw [if_pos (mem_allSweeps r)]
  exact keptAtLinkReset_eq (s.sweep r)

end Sys2Proof.Machine
end

section
/-! CLEAR requests (O40). -/

set_option Elab.async false

namespace Sys2Proof.Machine

variable {s : State}

theorem RigKept.trans {t u : State} (h : RigKept s t) (k : RigKept t u) : RigKept s u := by
  obtain ⟨hp, ⟨hc, hl⟩, ⟨hg, hq, hb⟩, hv, hm⟩ := h
  obtain ⟨kp, ⟨kc, kl⟩, ⟨kg, kq, kb⟩, kv, km⟩ := k
  exact ⟨kp.trans hp, ⟨kc.trans hc, kl.trans hl⟩, ⟨kg.trans hg, kq.trans hq, kb.trans hb⟩, kv.trans hv, km.trans hm⟩

/-! ## A take begins its next access (R117) -/

/-- The values of an access are those of the anchor, the counts, the board and the beat. -/
theorem busAccess_congr {t u : State} (a : Access) (hc : t.cadence = u.cadence)
    (hw : t.walker = { u.walker with accesses := t.walker.accesses, current := t.walker.current }) :
    busAccess a t = busAccess a u := by
  unfold busAccess linkAddress
  rw [hw, hc]

/-- An attached walker with nothing in progress begins its first access as the event ends. -/
theorem settle_walkerNow {v : State} (hatt : v.walker.state.attached = true) (hd : v.walker.state ≠ .detaching)
    (hcur : v.walker.current = none) : WalkerNow v.walker v.walker.accesses (settle v) := by
  have hfinish : finishDetach v = v := by simp [finishDetach, hd]
  have hsilence : silenceWriter v = v := by simp [silenceWriter, hatt]
  have hslot : (beginSlotWrite v).walker = v.walker := by simp
  have hcadence : (settle v).cadence = (beginSlotWrite v).cadence := by simp
  unfold WalkerNow
  rw [settle, hfinish, hsilence] at hcadence ⊢
  unfold beginAccess
  rw [hslot, hcur]
  cases hacc : v.walker.accesses with
  | nil =>
    simp only [List.tail_nil, List.head?_nil, Option.map_none, hslot]
    rw [← hacc, ← hcur]
  | cons a rest =>
    have hmay : v.walker.mayBegin a = true := by simp [Walker.mayBegin, hatt]
    simp only [hmay, if_true, List.tail_cons, List.head?_cons, Option.map_some]
    have hbus := busAccess_congr (t := beginSlotWrite v)
      (u := (beginSlotWrite v).setWalker
        { v.walker with accesses := rest, current := some (busAccess a (beginSlotWrite v)) }) a rfl (by rw [hslot]; rfl)
    rw [← hbus]
    rfl

theorem settle_regs_of_attached {v : State} (hd : v.walker.state ≠ .detaching) : (settle v).regs = v.regs := by
  have hfinish : finishDetach v = v := by simp [finishDetach, hd]
  simp [settle, hfinish]

/-! ## CLEAR at one port -/

/-- Outcomes given to no waiters change nothing. -/
theorem giveAll_of_nil {p : PortNo} (o : OutcomeCode) (h : (s.port p).waiters = []) : s.giveAll p o = s := by
  have hport : { s.port p with waiters := [] } = s.port p := by rw [← h]
  rw [State.giveAll, h, giveEach, State.modPort, hport]
  simp [State.port]

variable {p : PortNo}

theorem enterOff_boardKept_of_nil (h : (s.port p).waiters = []) : BoardKept s (enterOff p s) := by
  by_cases htar : (s.port p).target = .off
  · have hr := (PortRun.refl (p := p) (gives := false) (s := s)).mod
      (f := fun x => { x with bootAttempts := 0, tripCount := 0, recovery := 0 }) |>.enterState .off
    unfold enterOff reached
    dsimp only
    rw [if_pos (by simpa using htar), giveAll_of_nil _ (by simpa using h)]
    exact ⟨hr.walker, hr.inflight⟩
  · exact enterOff_boardKept htar

/-- CLEAR at a sound port gives no outcome: a FAULTED port has no waiters (R7). -/
theorem clearPort_boardKept (hgood : (s.port p).Good) (ticket : Nat) : BoardKept s (clearPort p ticket s).2 := by
  have hagain := (PortRun.refl (p := p) (gives := false) (s := s)).identifyAgain ticket
  unfold clearPort
  split
  · exact ⟨hagain.walker, hagain.inflight⟩
  · exact ⟨hagain.walker, hagain.inflight⟩
  · rename_i hst
    exact enterOff_boardKept_of_nil (hgood.resting (by rw [hst]; rfl)).2
  · exact ⟨rfl, rfl⟩

theorem clearPort_regs (ticket : Nat) :
    (clearPort p ticket s).2.regs = if (s.port p).state.isFaulted then s.regs.caused 2 else s.regs := by
  unfold clearPort
  cases hst : (s.port p).state with
  | faulted r =>
    have hoff : (enterOff p s).regs = s.regs.caused 2 := enterOff_regs _ _ (by simp [hst])
    cases r <;> simp [identifyAgain, hst, hoff, PState.isFaulted, State.handJoin]
  | _ => simp [PState.isFaulted]

theorem clearPort_outcome (ticket : Nat) :
    (clearPort p ticket s).1 = if (s.port p).state.isFaulted then .cleared else .notFaulted := by
  unfold clearPort
  cases hst : (s.port p).state with
  | faulted r => cases r <;> rfl
  | _ => rfl

/-- A sound port after CLEAR, as Table 8-6 has it (R8, R77). -/
theorem clearTaken_of_good {x : Port} (hgood : x.Good) (ticket : Nat) (beat : Word) :
    x.clearTaken ticket beat = x.cleared beat ticket := by
  unfold Port.clearTaken Port.cleared
  cases hst : x.state with
  | faulted r =>
    obtain ⟨htar, hwait⟩ := hgood.resting (by rw [hst]; rfl)
    cases r <;>
      simp [Port.identifiedAgain, Port.joinHanded, Port.entered, Port.wentOff, Port.countsCleared, Port.reachedTarget,
        PState.isAlive, hst, htar, hwait]
  | _ => rfl

/-! ## CLEAR at the ports of a list -/

/-- How CLEAR at the ports of a list ends, when it takes each port once (R147). -/
structure ClearsPorts (ticket : Nat) (ps : List PortNo) (o : Table OutcomeCode 16) (s : State)
    (r : Table OutcomeCode 16 × State) : Prop where
  rig : RigKept s r.2
  reader : r.2.reader = s.reader
  stampCounter : r.2.stampCounter = s.stampCounter
  board : BoardKept s r.2
  outcome : ∀ p, r.1.get p =
    if p ∈ ps then (if (s.port p).state.isFaulted then .cleared else .notFaulted) else o.get p
  port : ∀ p, r.2.port p = if p ∈ ps then (s.port p).cleared s.cadence.beat ticket else s.port p
  regs : r.2.regs = if ps.any fun p => (s.port p).state.isFaulted then s.regs.caused 2 else s.regs

theorem ClearsPorts.nil (ticket : Nat) (o : Table OutcomeCode 16) (s : State) :
    ClearsPorts ticket [] o s (o, s) where
  rig := ⟨rfl, ⟨rfl, rfl⟩, ⟨rfl, rfl, rfl⟩, rfl, rfl⟩
  reader := rfl
  stampCounter := rfl
  board := ⟨rfl, rfl⟩
  outcome := by simp
  port := by simp
  regs := by simp

/-- The state after CLEAR at one port of a list (R147). -/
def clearedAt (p : PortNo) (ticket : Nat) (s : State) : State := s.atPort p fun s => (clearPort p ticket s).2

theorem clearedAt_step (ticket : Nat) : PortStep p s (clearedAt p ticket s) :=
  (PortStep.refl p s).atPort ((PortStep.refl p s).clearPort ticket)

theorem ClearsPorts.cons {ticket : Nat} {rest : List PortNo} {o : Table OutcomeCode 16}
    {r : Table OutcomeCode 16 × State} (hp : p ∉ rest) (hgood : (s.port p).Good)
    (h : ClearsPorts ticket rest (o.set p (clearPort p ticket s).1) (clearedAt p ticket s) r) :
    ClearsPorts ticket (p :: rest) o s r := by
  have hstep := clearedAt_step (p := p) (s := s) ticket
  have hrun := PortRun.refl.clearPort (p := p) (s := s) ticket
  have hothers : ∀ q ∈ rest, (clearedAt p ticket s).port q = s.port q := fun q hq =>
    hstep.others q (by rintro rfl; exact hp hq)
  have hport : (clearedAt p ticket s).port p = (s.port p).cleared s.cadence.beat ticket := by
    rw [clearedAt, atPort_port, clearPort_port, clearTaken_of_good hgood]
  have hcadence : (clearedAt p ticket s).cadence = s.cadence := hstep.rig.2.1.1
  have hboard := clearPort_boardKept hgood ticket
  exact
    { rig := hstep.rig.trans h.rig
      reader := h.reader.trans (by rw [clearedAt, atPort_reader, hrun.reader])
      stampCounter := h.stampCounter.trans (by rw [clearedAt, atPort_stampCounter, hrun.stampCounter])
      board := ⟨h.board.1.trans (by rw [clearedAt, atPort_walker, hboard.1]),
        h.board.2.trans (by rw [clearedAt, atPort_inflight, hboard.2])⟩
      outcome := fun q => by
        rw [h.outcome]
        by_cases hq : q ∈ rest
        · rw [if_pos hq, if_pos (List.mem_cons_of_mem _ hq), hothers q hq]
        · by_cases hqp : q = p
          · subst hqp
            simp [hp, clearPort_outcome]
          · simp [hq, hqp, Table.get_set]
      port := fun q => by
        rw [h.port, hcadence]
        by_cases hq : q ∈ rest
        · rw [if_pos hq, if_pos (List.mem_cons_of_mem _ hq), hothers q hq]
        · by_cases hqp : q = p
          · subst hqp
            simp [hp, hport]
          · rw [if_neg hq, if_neg (by simp [hq, hqp]), hstep.others q hqp]
      regs := by
        have hany : (rest.any fun q => ((clearedAt p ticket s).port q).state.isFaulted) =
            rest.any fun q => (s.port q).state.isFaulted := by
          rw [Bool.eq_iff_iff, List.any_eq_true, List.any_eq_true]
          exact exists_congr fun q => and_congr_right fun hq => by rw [hothers q hq]
        have hregs : (clearedAt p ticket s).regs =
            if (s.port p).state.isFaulted then s.regs.caused 2 else s.regs := by
          rw [clearedAt, atPort_regs, clearPort_regs]
        rw [h.regs, hany, hregs, List.any_cons]
        cases (s.port p).state.isFaulted <;> cases rest.any fun q => (s.port q).state.isFaulted <;> simp }

theorem clearPorts_clears (ticket : Nat) (ps : List PortNo) (hnodup : ps.Nodup) (o : Table OutcomeCode 16)
    (hgood : ∀ p ∈ ps, (s.port p).Good) : ClearsPorts ticket ps o s (clearPorts ticket ps o s) := by
  induction ps generalizing o s with
  | nil => exact .nil ticket o s
  | cons p rest ih =>
    obtain ⟨hp, hrest⟩ := List.nodup_cons.1 hnodup
    refine .cons hp (hgood p List.mem_cons_self) (ih hrest _ fun q hq => ?_)
    have hne : q ≠ p := by rintro rfl; exact hp hq
    exact (clearedAt_step (p := p) (s := s) ticket).others q hne ▸ hgood q (List.mem_cons_of_mem _ hq)

/-! ## The request -/

/-- A POSTED block of kind CLEAR that passes the checks is taken as a CLEAR (R132, R147). -/
theorem takeCopy_clear {a : Addr} {data : Table Byte 64} (hkind : numAt data 9 = 5) (hok : refusalOf data s = none)
    (u : State) : takeCopy { address := a, data := data } u = takeClear { address := a, data := data } u := by
  have hflags : badFlags .clear data = flagsBad data := by
    unfold badFlags flagsBad
    rw [hkind]
    rfl
  have hpass : flagsBad data = false ∧ targetBad data s = false := by
    unfold refusalOf at hok
    simp only [hkind] at hok
    split_ifs at hok with h₁ h₂ h₃ <;> simp_all
  have hmask : flagAt data 1 = false := by
    have h := hpass.1
    unfold flagsBad at h
    rw [hkind] at h
    simp at h
    exact h.1.2
  have htarget : badTarget .clear data u = false := by
    have h := hpass.2
    unfold targetBad at h
    rw [hkind, hmask] at h
    unfold badTarget
    rw [show flagGroup data = false from hmask]
    exact h
  have hkindOf : kindOf data = some .clear := by
    unfold numAt at hkind
    simp [kindOf, hkind]
  unfold takeCopy
  simp only [hkindOf, hflags, htarget, hpass]
  simp [takeKind]

theorem mem_maskPorts (mask : Nat) (p : PortNo) : p ∈ maskPorts mask ↔ mask.testBit p.val = true := by
  have hall : p ∈ allPorts := by fin_cases p <;> simp [allPorts]
  simp [maskPorts, hall]

theorem maskPorts_nodup (mask : Nat) : (maskPorts mask).Nodup :=
  List.Nodup.filter _ (by decide)

/-- The state in which a block read that counts has been taken off the bus and its copy is held (R120). -/
def copyHeld (c : FetchedCopy) (s : State) : State :=
  (endAccess s).setWalker { (endAccess s).walker with copy := some c }

theorem exec_blockRead_posted {b : BusAccess} {a : Addr} {data : Table Byte 64} (hst : s.walker.state = .fetching)
    (hr : s.reading b (.blockRead a)) (hposted : numAt data 8 = 1) :
    exec (.blockReadComplete data) s =
      .next (settle (takeCopy { address := a, data := data } (copyHeld { address := a, data := data } s.quiet))) := by
  obtain ⟨hcur, hacc, hhalt⟩ := hr
  have hcounts : readCounts s.quiet b = true := by simp [readCounts, hhalt, hst]
  have hbyte : byteAt data 8 = 1 := BitVec.eq_of_toNat_eq hposted
  have hblock : blockState data = .posted := by
    unfold blockState
    rw [hbyte]
    rfl
  have hread : blockRead a data (endAccess s.quiet) =
      takeCopy { address := a, data := data } (copyHeld { address := a, data := data } s.quiet) := by
    unfold blockRead; rw [hblock]; rfl
  rw [← hread]
  change execBlockReadComplete data s = _
  unfold execBlockReadComplete
  rw [hcur]
  dsimp only
  rw [hacc]
  simp only [event_eq, hcounts, if_true]

/-- A take that completes at once, from the state `u` that its effects have made of the held copy (R121). -/
theorem took_of_complete {c : FetchedCopy} {outs : Table OutcomeCode 16} {u : State}
    (hw : u.walker = (copyHeld c s.quiet).walker) : Took c (.done outs) [] [] s (settle (complete c outs u)) := by
  have hstate : (complete c outs u).walker.state = .fetching := by
    rw [complete, lookFromAnchor_moveAnchor]; rfl
  have hnow := settle_walkerNow (v := complete c outs u) (by rw [hstate]; rfl) (by rw [hstate]; decide)
    (by rw [complete, lookFromAnchor_moveAnchor]; simp [hw, copyHeld, endAccess])
  unfold Took
  unfold WalkerNow at hnow ⊢
  rw [hnow, complete, lookFromAnchor_moveAnchor]
  simp [hw, copyHeld, endAccess, takeWrite, flagNotify]

/-- Settles O40: CLEAR takes each named port once, and the take's own effects place no access. -/
theorem clearRequestsAnswerEveryPort : Obligations.ClearRequestsAnswerEveryPort := by
  intro b a data s h hsound hst hread hposted hkind hok
  have hgood := (portsSound_iff s).1 hsound
  have hexec := exec_blockRead_posted hst hread hposted
  rw [takeCopy_clear hkind hok] at hexec
  have hclear := clearPorts_clears (s := copyHeld { address := a, data := data } s.quiet) s.nextTicket
    (maskPorts (targetField data)) (maskPorts_nodup _) noOutcomes fun p _ => hgood p
  generalize hr : clearPorts s.nextTicket (maskPorts (targetField data)) noOutcomes
    (copyHeld { address := a, data := data } s.quiet) = r at hclear
  have htake : takeClear { address := a, data := data } (copyHeld { address := a, data := data } s.quiet) =
      complete { address := a, data := data } r.1 r.2 := by
    rw [← hr]; rfl
  rw [htake] at hexec
  have hrig : RigKept s r.2 := hclear.rig
  have hdone := complete_eq { address := a, data := data } r.1 r.2
  have hstate : (complete { address := a, data := data } r.1 r.2).walker.state = .fetching := by
    rw [complete, lookFromAnchor_moveAnchor]; rfl
  have hregs := settle_regs_of_attached (v := complete { address := a, data := data } r.1 r.2)
    (by rw [hstate]; decide)
  have hmask : ∀ p, p ∈ maskPorts (targetField data) ↔ (fieldAt data 16 2).testBit p.val = true := mem_maskPorts _
  refine ⟨_, r.1, hexec, ?_, ?_, ?_, ?_, took_of_complete hclear.board.1, fun p => ?_, fun p => ?_, ?_⟩
  · rw [hdone]
    simpa [RigKept, ClockAndLinesKept, GroupsKept, SupplyKept] using hrig
  · rw [hdone]; simpa using show r.2.reader = s.reader from hclear.reader
  · rw [hdone]; simpa using show r.2.stampCounter = s.stampCounter from hclear.stampCounter
  · rw [hdone]; simpa using show r.2.inflight = s.inflight from hclear.board.2
  · rw [hclear.outcome]
    simp only [hmask, show noOutcomes.get p = .none by simp [noOutcomes]]
    rfl
  · rw [hdone, settle_port]
    refine (hclear.port p).trans ?_
    simp only [hmask]
    rfl
  · have hany : ((maskPorts (targetField data)).any fun p => (s.port p).state.isFaulted) =
        allPorts.any fun p => (fieldAt data 16 2).testBit p.val && (s.port p).state.isFaulted := by
      rw [maskPorts, List.any_filter]; rfl
    have hcleared : (settle (complete { address := a, data := data } r.1 r.2)).regs =
        if (maskPorts (targetField data)).any fun p => (s.port p).state.isFaulted then s.regs.caused 2
        else s.regs := by
      rw [hregs, hdone]; exact hclear.regs
    rw [hany] at hcleared
    split <;> rename_i hfaulted
    · rw [causesSet_iff, hcleared, if_pos hfaulted]
    · rw [RegsKept, hcleared, if_neg hfaulted]

end Sys2Proof.Machine
end

section
/-! The invariant of a port by its state: what a present port that is not FAULTED always has, and what each kind
of state asks for besides (R1, R2, R4, R9, R18, R22, R32, R54, R62, R82). -/

set_option Elab.async false

namespace Sys2Proof.Machine

namespace Port

variable {x y : Port}

/-! ## What a present port has -/

/-- What a port in OFF, QUEUED, a warming or an alive state, or STOPPING has in common: its plug and class record,
no cut mark, and counts in their ranges. -/
structure Fit (x : Port) : Prop where
  plugged : x.plugged = true
  record : x.classRecord.isNone = false
  cut : x.cut = false
  boots : x.bootAttempts ≤ 2
  trips : x.tripCount ≤ 2
  recovery : x.recovery ≤ 2
  silence : x.silence ≤ x.classRecord.elim 0 (·.lapseLimit.toNat)

/-- The port is present and not FAULTED. -/
def present (x : Port) : Bool := !x.state.isAbsent && !x.state.isFaulted

theorem Good.fit (h : x.Good) (hp : x.present = true) : x.Fit := by
  have hst : x.state.isAbsent = false ∧ x.state.isFaulted = false := by simpa [present] using hp
  have hcounts := h.attempts
  rw [hst.2] at hcounts
  simp only [Bool.false_and, Bool.false_eq_true, if_false] at hcounts
  refine ⟨?_, ?_, h.cut, hcounts.1, hcounts.2, h.recovery, h.silence⟩
  · rw [h.plugged]; cases hs : x.state <;> simp_all [PState.isAbsent]
  · rw [h.record]; cases hs : x.state <;> simp_all [PState.isAbsent, PState.isFaulted, PState.noRecord]

theorem present_of_laneOpen (h : x.state.laneOpen = true) : x.present = true := by
  unfold present; cases hs : x.state <;> simp_all [PState.laneOpen, PState.isAbsent, PState.isFaulted]

theorem laneOpen_of_alive {st : PState} (h : st.isAlive = true) : st.laneOpen = true := by
  cases st <;> simp_all [PState.isAlive, PState.laneOpen]

/-! ## The clauses on TUNING and on the phrase in flight -/

/-- The cursor and the restart mark fit the state (R82, R84, R87). -/
def CursorFits (x : Port) : Prop :=
  if x.state = .tuning then
    if x.restart then x.lane.carries .set = true else x.cursor < x.profile.length
  else x.cursor = 0 ∧ x.restart = false

/-- The phrase in flight fits the state (R50, R51, Table 1-3a). -/
def PhraseFits (x : Port) : Prop :=
  ∀ ph, x.lane.phrase? = some ph →
    ph.name.sentIn x.state = true ∧ 1 ≤ ph.attempt ∧ ph.attempt ≤ x.lane.lastAttempt ∧ ph.next < ph.symbols.length

theorem Good.cursorFits (h : x.Good) : x.CursorFits := h.tuning

theorem Good.phraseFits (h : x.Good) : x.PhraseFits := h.phrase

theorem cursorFits_of_clear (hst : x.state ≠ .tuning) (hc : x.cursor = 0) (hr : x.restart = false) :
    x.CursorFits := by
  unfold CursorFits; rw [if_neg hst]; exact ⟨hc, hr⟩

theorem phraseFits_of_none (h : x.lane.phrase? = none) : x.PhraseFits := by
  intro ph hph; rw [h] at hph; cases hph

theorem phraseFits_newPhrase {n : PhraseName} {l : List Byte} {d : Nat} (hl : x.lane = .sending (newPhrase n l) d)
    (hs : n.sentIn x.state = true) : x.PhraseFits := by
  intro ph hph
  rw [hl] at hph ⊢
  obtain rfl : newPhrase n l = ph := Option.some.inj hph
  exact ⟨hs, Nat.le_refl 1, show 1 ≤ 3 by decide, by simp [newPhrase, framed]⟩

/-! ## The kinds of state -/

/-- An alive port. -/
theorem good_of_alive (hst : x.state.isAlive = true) (hfit : x.Fit) (hlane : x.lane ≠ .closed)
    (htimer : x.state.mayTime = false → x.timer = none) (hcursor : x.CursorFits) (hphrase : x.PhraseFits) :
    x.Good where
  lane := by simp [hlane, laneOpen_of_alive hst]
  pulse := fun h => by cases hs : x.state <;> simp_all [PState.isAlive, PState.railOn]
  untimed := htimer
  timed := fun h => by cases hs : x.state <;> simp_all [PState.isAlive, PState.alwaysTimed]
  still := fun h => by rw [hst] at h; cases h
  plugged := by rw [hfit.plugged]; cases hs : x.state <;> simp_all [PState.isAlive]
  record := by rw [hfit.record]; cases hs : x.state <;> simp_all [PState.isAlive, PState.noRecord]
  resting := fun h => by cases hs : x.state <;> simp_all [PState.isAlive, PState.targetIsOff]
  cut := hfit.cut
  reason := fun r h => by rw [h] at hst; cases hst
  attempts := by
    rw [show x.state.isFaulted = false by cases hs : x.state <;> simp_all [PState.isAlive, PState.isFaulted]]
    exact ⟨hfit.boots, hfit.trips⟩
  recovery := hfit.recovery
  silence := hfit.silence
  tuning := hcursor
  phrase := hphrase

/-- A port in OFF or QUEUED. -/
theorem good_of_waiting (hst : x.state = .off ∨ x.state = .queued) (hfit : x.Fit) (hdown : x.railDown)
    (hoff : x.state = .off → x.target = .off ∧ x.waiters = []) : x.Good := by
  obtain ⟨hlane, hwake, htimer, hclaim, hsilence, hkeep, hcursor, hrestart⟩ := hdown
  exact
    { lane := by rcases hst with h | h <;> simp [hlane, h, PState.laneOpen]
      pulse := fun _ => hwake
      untimed := fun _ => htimer
      timed := fun ht => by rcases hst with h | h <;> rw [h] at ht <;> cases ht
      still := fun _ => ⟨hsilence, hkeep, hclaim⟩
      plugged := by rcases hst with h | h <;> rw [hfit.plugged, h] <;> rfl
      record := by rcases hst with h | h <;> rw [hfit.record, h] <;> rfl
      resting := fun ht => by
        rcases hst with h | h
        · exact hoff h
        · rw [h] at ht; cases ht
      cut := hfit.cut
      reason := fun r hr => by rcases hst with h | h <;> rw [h] at hr <;> cases hr
      attempts := by rcases hst with h | h <;> rw [h] <;> exact ⟨hfit.boots, hfit.trips⟩
      recovery := hfit.recovery
      silence := hfit.silence
      tuning := cursorFits_of_clear (by rcases hst with h | h <;> rw [h] <;> decide) hcursor hrestart
      phrase := phraseFits_of_none (by rw [hlane]; rfl) }

/-- A port in POWERING, BOOTING or STOPPING, whose timer runs from entry. -/
theorem good_of_timed (hst : x.state.alwaysTimed = true) (hfit : x.Fit)
    (hlane : x.lane = .closed ↔ x.state.laneOpen = false) (htimer : x.timer.isSome = true)
    (hstill : x.silence = 0 ∧ x.keepDue = false ∧ x.stepClaim = false) (hcursor : x.cursor = 0 ∧ x.restart = false)
    (hphrase : x.lane.phrase? = none) : x.Good := by
  have hcases : x.state = .powering ∨ x.state = .booting ∨ x.state = .stopping := by
    cases hs : x.state <;> simp_all [PState.alwaysTimed]
  exact
    { lane := hlane
      pulse := fun h => by rcases hcases with hs | hs | hs <;> rw [hs] at h <;> cases h
      untimed := fun h => by rcases hcases with hs | hs | hs <;> rw [hs] at h <;> cases h
      timed := fun _ => htimer
      still := fun _ => hstill
      plugged := by rcases hcases with h | h | h <;> rw [hfit.plugged, h] <;> rfl
      record := by rcases hcases with h | h | h <;> rw [hfit.record, h] <;> rfl
      resting := fun h => by rcases hcases with hs | hs | hs <;> rw [hs] at h <;> cases h
      cut := hfit.cut
      reason := fun r h => by rcases hcases with hs | hs | hs <;> rw [hs] at h <;> cases h
      attempts := by rcases hcases with h | h | h <;> rw [h] <;> exact ⟨hfit.boots, hfit.trips⟩
      recovery := hfit.recovery
      silence := hfit.silence
      tuning := cursorFits_of_clear (by rcases hcases with h | h | h <;> rw [h] <;> decide) hcursor.1 hcursor.2
      phrase := phraseFits_of_none hphrase }

/-- A FAULTED port. -/
theorem good_of_faulted {r : FaultReason} (hst : x.state = .faulted r) (hdown : x.railDown)
    (hplug : x.plugged = true) (hrecord : x.classRecord.isNone = x.state.noRecord)
    (hrest : x.target = .off ∧ x.waiters = []) (hcut : x.cut = false) (hreason : x.endReason = .fault r)
    (hcounts : if x.state.noRecord then x.bootAttempts ≤ 2 ∧ x.tripCount ≤ 2
      else x.bootAttempts ≤ 3 ∧ x.tripCount ≤ 3) (hrec : x.recovery ≤ 2) : x.Good := by
  obtain ⟨hlane, hwake, htimer, hclaim, hsilence, hkeep, hcursor, hrestart⟩ := hdown
  exact
    { lane := by simp [hlane, hst, PState.laneOpen]
      pulse := fun _ => hwake
      untimed := fun _ => htimer
      timed := fun ht => by rw [hst] at ht; cases ht
      still := fun _ => ⟨hsilence, hkeep, hclaim⟩
      plugged := by rw [hplug, hst]; rfl
      record := hrecord
      resting := fun _ => hrest
      cut := hcut
      reason := fun r' h => by
        obtain rfl : r = r' := PState.faulted.inj (hst.symm.trans h)
        exact hreason
      attempts := by
        have hf : x.state.isFaulted = true := by rw [hst]; rfl
        cases hn : x.state.noRecord <;> rw [hn] at hcounts <;> simpa [hf] using hcounts
      recovery := hrec
      silence := by rw [hsilence]; exact Nat.zero_le _
      tuning := cursorFits_of_clear (by rw [hst]; exact PState.noConfusion) hcursor hrestart
      phrase := phraseFits_of_none (by rw [hlane]; rfl) }

/-- A port with no camera known: EMPTY or IDENTIFYING. -/
theorem good_of_absent (hst : x.state.isAbsent = true) (hdown : x.railDown)
    (hplug : x.plugged = (x.state != .empty)) (hrecord : x.classRecord = none)
    (hrest : x.target = .off ∧ x.waiters = []) (hcut : x.cut = false)
    (hcounts : x.bootAttempts ≤ 2 ∧ x.tripCount ≤ 2) (hrec : x.recovery ≤ 2) : x.Good := by
  obtain ⟨hlane, hwake, htimer, hclaim, hsilence, hkeep, hcursor, hrestart⟩ := hdown
  have hcases : x.state = .empty ∨ x.state = .identifying := by
    cases hs : x.state <;> simp_all [PState.isAbsent]
  exact
    { lane := by rcases hcases with h | h <;> simp [hlane, h, PState.laneOpen]
      pulse := fun _ => hwake
      untimed := fun _ => htimer
      timed := fun ht => by rcases hcases with h | h <;> rw [h] at ht <;> cases ht
      still := fun _ => ⟨hsilence, hkeep, hclaim⟩
      plugged := hplug
      record := by rcases hcases with h | h <;> rw [hrecord, h] <;> rfl
      resting := fun _ => hrest
      cut := hcut
      reason := fun r hr => by rcases hcases with h | h <;> rw [h] at hr <;> cases hr
      attempts := by rcases hcases with h | h <;> rw [h] <;> exact hcounts
      recovery := hrec
      silence := by rw [hsilence]; exact Nat.zero_le _
      tuning := cursorFits_of_clear (by rcases hcases with h | h <;> rw [h] <;> decide) hcursor hrestart
      phrase := phraseFits_of_none (by rw [hlane]; rfl) }

/-- A sound port with its rail off. -/
theorem Good.railDown (h : x.Good) (hst : x.state.railOn = false) : x.railDown := by
  have hopen : x.state.laneOpen = false := by cases hs : x.state <;> simp_all [PState.railOn, PState.laneOpen]
  have hmay : x.state.mayTime = false := by cases hs : x.state <;> simp_all [PState.railOn, PState.mayTime]
  have halive : x.state.isAlive = false := by cases hs : x.state <;> simp_all [PState.railOn, PState.isAlive]
  have htuning : x.state ≠ .tuning := by rintro hs; rw [hs] at hst; cases hst
  obtain ⟨hs, hk, hc⟩ := h.still halive
  have hcur := h.tuning
  rw [if_neg htuning] at hcur
  exact ⟨h.lane.2 hopen, h.pulse hst, h.untimed hmay, hc, hs, hk, hcur.1, hcur.2⟩

end Port

end Sys2Proof.Machine
end

section
/-! Every operation of a port keeps its invariant: the changes of state. -/

set_option Elab.async false

namespace Sys2Proof.Machine

namespace Port

variable {x y : Port}

/-! ## What a present port has is kept -/

theorem Fit.entered (h : x.Fit) (st : PState) (b : Word) : (x.entered st b).Fit := by
  unfold Port.entered
  split
  · exact h
  · refine ⟨h.plugged, h.record, h.cut, h.boots, h.trips, h.recovery, ?_⟩
    dsimp only
    split
    · exact h.silence
    · exact Nat.zero_le _

theorem Fit.railCut (h : x.Fit) (why : EndReason) : (x.railCut why).Fit := by
  unfold Port.railCut
  split <;> exact ⟨h.plugged, h.record, h.cut, h.boots, h.trips, h.recovery, h.silence⟩

theorem Fit.told (h : x.Fit) (m : GovMsg) : (x.told m).Fit :=
  ⟨h.plugged, h.record, h.cut, h.boots, h.trips, h.recovery, h.silence⟩

theorem Fit.gaveUp (h : x.Fit) : x.gaveUp.Fit := by
  unfold Port.gaveUp; split_ifs <;> exact ⟨h.plugged, h.record, h.cut, h.boots, h.trips, h.recovery, h.silence⟩

theorem Fit.reachedIfGoal (h : x.Fit) : x.reachedIfGoal.Fit := by
  unfold Port.reachedIfGoal
  split
  · exact ⟨h.plugged, h.record, h.cut, h.boots, h.trips, Nat.zero_le _, h.silence⟩
  · exact h

theorem Fit.claimRaised (h : x.Fit) : x.claimRaised.Fit :=
  ⟨h.plugged, h.record, h.cut, h.boots, h.trips, h.recovery, h.silence⟩

theorem Fit.exchanged (h : x.Fit) : x.exchanged.Fit := by
  unfold Port.exchanged
  split
  · exact ⟨h.plugged, h.record, h.cut, h.boots, h.trips, h.recovery, Nat.zero_le _⟩
  · exact h

theorem Fit.laneFreed (h : x.Fit) : x.laneFreed.Fit :=
  ⟨h.plugged, h.record, h.cut, h.boots, h.trips, h.recovery, h.silence⟩

/-- The fields that the invariant does not read. -/
theorem Good.aside (h : x.Good) {firmware : Option Byte} {stamp : Word} {stale : Bool} {stateBeat : Word}
    {plugLevel : Bool} {plugDebounce : Deadline} {insertWait : Nat} {toGovernor : List GovMsg}
    {fromGovernor : List PortMsg} {toReader : List ReaderMsg} {joinTicket : Nat} {idResults : List IdResult}
    {replacements : List Profile} {boundaries : List Word} :
    ({ x with
      firmware := firmware, stamp := stamp, stale := stale, stateBeat := stateBeat, plugLevel := plugLevel
      plugDebounce := plugDebounce, insertWait := insertWait, toGovernor := toGovernor
      fromGovernor := fromGovernor, toReader := toReader, joinTicket := joinTicket, idResults := idResults
      replacements := replacements, boundaries := boundaries } : Port).Good :=
  ⟨h.lane, h.pulse, h.untimed, h.timed, h.still, h.plugged, h.record, h.resting, h.cut, h.reason, h.attempts,
    h.recovery, h.silence, h.tuning, h.phrase⟩

/-! ## States whose rail is off -/

theorem entered_of_ne {st : PState} (b : Word) (h : x.state ≠ st) :
    x.entered st b =
      { x with
        state := st
        stateBeat := b
        timer := none
        silence := if st.isAlive then x.silence else 0
        keepDue := if st.isAlive then x.keepDue else false
        stepClaim := if st.isAlive then x.stepClaim else false
        cursor := if st = .tuning then x.cursor else 0
        restart := if st = .tuning then x.restart else false } := by
  unfold entered; rw [if_neg h]

/-- The rail of a sound port cut (R1, R53). -/
theorem railCut_of_good (h : x.Good) (why : EndReason) :
    x.railCut why =
      { x with
        lane := .closed, stepClaim := false, wakePulse := none
        endReason := if x.railOn then why else x.endReason } := by
  by_cases hon : x.railOn = true
  · simp [railCut, hon]
  · have hdown := h.railDown (by simpa [railOn] using hon)
    obtain ⟨hlane, hwake, -, hclaim, -⟩ := hdown
    have hsame : x = { x with lane := .closed, stepClaim := false, wakePulse := none } := by
      rw [← hlane, ← hwake, ← hclaim]
    rw [railCut, if_neg hon, if_neg hon]
    exact hsame

/-- A state other than alive, entered with the lane closed and no wake pulse. -/
theorem entered_railDown {st : PState} (b : Word) (hst : x.state ≠ st) (ha : st.isAlive = false)
    (hlane : x.lane = .closed) (hwake : x.wakePulse = none) : (x.entered st b).railDown := by
  have ht : st ≠ .tuning := by rintro rfl; cases ha
  rw [entered_of_ne b hst]
  simp [railDown, hlane, hwake, ha, ht]

/-- QUEUED entered by a present port with its lane closed (R3). -/
theorem queuedUp_good (b : Word) (hfit : x.Fit) (hst : x.state ≠ .queued) (hlane : x.lane = .closed)
    (hwake : x.wakePulse = none) : (x.queuedUp b).Good := by
  have hentered : (x.entered .queued b).Good :=
    good_of_waiting (.inr (by simp)) (hfit.entered _ _) (entered_railDown b hst rfl hlane hwake)
      fun h => by simp at h
  exact hentered.aside

/-- OFF entered by a present port with its lane closed, and left for QUEUED with another target (R19). -/
theorem wentOff_good (b : Word) (hplug : x.plugged = true) (hrecord : x.classRecord.isNone = false)
    (hcut : x.cut = false) (hst : x.state ≠ .off) (hlane : x.lane = .closed) (hwake : x.wakePulse = none) :
    (x.wentOff b).Good := by
  have hst' : x.countsCleared.state ≠ .off := hst
  have hdown : (x.countsCleared.entered .off b).railDown := entered_railDown b hst' rfl hlane hwake
  have hfit : (x.countsCleared.entered .off b).Fit := by
    rw [entered_of_ne b hst']
    exact ⟨hplug, hrecord, hcut, Nat.zero_le _, Nat.zero_le _, Nat.zero_le _, Nat.zero_le _⟩
  unfold wentOff
  split <;> rename_i htar
  · refine good_of_waiting (.inl (by simp [reachedTarget])) ?_ hdown fun _ => ⟨?_, rfl⟩
    · exact ⟨hfit.plugged, hfit.record, hfit.cut, hfit.boots, hfit.trips, Nat.zero_le _, hfit.silence⟩
    · simpa [reachedTarget, countsCleared] using htar
  · obtain ⟨hl, hw, -⟩ := hdown
    exact queuedUp_good b hfit (by simp) hl hw

/-- OFF entered with the rail cut in the same event, by a sound port in another state with its class record. -/
theorem railCut_wentOff_good (b : Word) (why : EndReason) (h : x.Good) (hp : x.present = true)
    (hst : x.state ≠ .off) : ((x.railCut why).wentOff b).Good := by
  have hfit := (h.fit hp).railCut why
  have hcut := railCut_of_good h why
  exact wentOff_good b hfit.plugged hfit.record hfit.cut (by simpa using hst) (by rw [hcut]) (by rw [hcut])

/-- FAULTED entered (R7). -/
theorem faultEntered_good (r : FaultReason) (b : Word) (hst : x.state.isFaulted = false)
    (hplug : x.plugged = true) (hrecord : x.classRecord.isNone = (PState.faulted r).noRecord)
    (hcut : x.cut = false) (hrec : x.recovery ≤ 2)
    (hcounts : if (PState.faulted r).noRecord then x.bootAttempts ≤ 2 ∧ x.tripCount ≤ 2
      else x.bootAttempts ≤ 3 ∧ x.tripCount ≤ 3)
    (hdark : x.railOn = false → x.lane = .closed ∧ x.wakePulse = none) : (x.faultEntered r b).Good := by
  have hlane : (x.railCut (.fault r)).gaveUp.lane = .closed ∧ (x.railCut (.fault r)).gaveUp.wakePulse = none := by
    have hgave : ∀ z : Port, z.gaveUp.lane = z.lane ∧ z.gaveUp.wakePulse = z.wakePulse := fun z => by
      unfold gaveUp; split_ifs <;> exact ⟨rfl, rfl⟩
    rw [(hgave _).1, (hgave _).2]
    cases hon : x.railOn
    · simpa [railCut, hon] using hdark hon
    · simp [railCut_of_on _ hon]
  obtain ⟨y, hy⟩ : ∃ y, y = ({ (x.railCut (.fault r)).gaveUp with
      target := .off, endReason := .fault r, waiters := [] } : Port) := ⟨_, rfl⟩
  have hkept : y.state = x.state ∧ y.plugged = x.plugged ∧ y.classRecord = x.classRecord ∧ y.cut = x.cut ∧
      y.recovery = x.recovery ∧ y.bootAttempts = x.bootAttempts ∧ y.tripCount = x.tripCount := by
    subst hy
    unfold gaveUp railCut
    split_ifs <;> exact ⟨rfl, rfl, rfl, rfl, rfl, rfl, rfl⟩
  obtain ⟨kst, kplug, krecord, kcut, krec, kboots, ktrips⟩ := hkept
  have hne : y.state ≠ .faulted r := by rw [kst]; rintro hs; rw [hs] at hst; cases hst
  have hdown : (y.entered (.faulted r) b).railDown :=
    entered_railDown b hne rfl (by rw [hy]; exact hlane.1) (by rw [hy]; exact hlane.2)
  have hresult : x.faultEntered r b = y.entered (.faulted r) b := by rw [hy]; rfl
  rw [hresult]
  rw [entered_of_ne b hne] at hdown ⊢
  exact good_of_faulted (r := r) rfl hdown (kplug.trans hplug) ((congrArg _ krecord).trans hrecord)
    (by rw [hy]; exact ⟨rfl, rfl⟩) (kcut.trans hcut) (by rw [hy]) (by rw [kboots, ktrips]; exact hcounts)
    (by rw [krec]; exact hrec)

/-- FAULTED entered by a sound present port for a reason that leaves it its class record. -/
theorem Good.faultEntered {r : FaultReason} (h : x.Good) (hp : x.present = true)
    (hr : (PState.faulted r).noRecord = false) (b : Word) : (x.faultEntered r b).Good := by
  have hfit := h.fit hp
  refine faultEntered_good r b ?_ hfit.plugged (by rw [hfit.record, hr]) hfit.cut hfit.recovery ?_ fun hon => ?_
  · cases hs : x.state <;> simp_all [present, PState.isFaulted]
  · rw [hr]; exact ⟨Nat.le_succ_of_le hfit.boots, Nat.le_succ_of_le hfit.trips⟩
  · obtain ⟨hlane, hwake, -⟩ := h.railDown hon
    exact ⟨hlane, hwake⟩

end Port

end Sys2Proof.Machine
end

section
/-! Every operation of a port keeps its invariant: the alive states, the lane and the phrases. -/

set_option Elab.async false

namespace Sys2Proof.Machine

namespace Port

variable {x y : Port}

/-! ## Grant points and claims -/

theorem alive_of_stepCall {st : PState} {t : Target} (h : (stepCall st t).isSome = true) : st.isAlive = true := by
  cases st <;> simp_all [stepCall, PState.isAlive]

theorem sentIn_of_stepCall {st : PState} {t : Target} {n : PhraseName} (h : stepCall st t = some n) :
    n.sentIn st = true := by
  cases st <;> cases t <;> simp_all [stepCall] <;> subst h <;> rfl

/-- The step chosen is a new phrase that the state sends (Table 1-3a). -/
theorem chooseStep_fits {ph : Phrase} (h : x.chooseStep = some ph) :
    ∃ n l, ph = newPhrase n l ∧ n.sentIn x.state = true := by
  unfold chooseStep at h
  split at h
  · cases h
  · rename_i n hn
    obtain ⟨l, -, hl⟩ := Option.map_eq_some_iff.1 h
    exact ⟨n, l, hl.symm, sentIn_of_stepCall hn⟩

/-- At a free lane no SET is in flight, so no restart mark stands (R87). -/
theorem Good.restart_of_free (h : x.Good) (hl : x.lane.carries .set = false) : x.restart = false := by
  have ht := h.tuning
  by_contra hr
  have hr : x.restart = true := by simpa using hr
  rw [hr] at ht
  by_cases hst : x.state = .tuning
  · rw [if_pos hst, if_pos rfl, hl] at ht; cases ht
  · rw [if_neg hst] at ht; cases ht.2

/-- The cursor fits whatever lane carries the phrase when no restart mark stands. -/
theorem CursorFits.of_lane (h : x.CursorFits) (hr : x.restart = false) (hst : y.state = x.state)
    (hc : y.cursor = x.cursor) (hyr : y.restart = x.restart) (hp : y.profile = x.profile) : y.CursorFits := by
  unfold CursorFits at h ⊢
  rw [hst, hyr, hc, hp]
  rw [hr] at h ⊢
  exact h

/-- A phrase begun at a free lane of a sound alive port (R61). -/
theorem Good.sending (h : x.Good) (ha : x.state.isAlive = true) (hl : x.lane = .free) {n : PhraseName}
    {l : List Byte} (hs : n.sentIn x.state = true) {claim : Bool} :
    ({ x with lane := .sending (newPhrase n l) Config.ackWaitMs, stepClaim := claim } : Port).Good := by
  have hfit := h.fit (present_of_laneOpen (laneOpen_of_alive ha))
  have hr := h.restart_of_free (by rw [hl]; rfl)
  refine good_of_alive ha ⟨hfit.plugged, hfit.record, hfit.cut, hfit.boots, hfit.trips, hfit.recovery, hfit.silence⟩
    Lane.noConfusion h.untimed (h.cursorFits.of_lane hr rfl rfl rfl rfl) (phraseFits_newPhrase rfl hs)

theorem alive_of_claim (h : x.Good) (hc : x.keepDue = true ∨ x.stepClaim = true) : x.state.isAlive = true := by
  by_contra ha
  obtain ⟨-, hk, hs⟩ := h.still (by simpa using ha)
  rw [hk, hs] at hc
  simp at hc

/-- A sound alive port with the step claim at another value. -/
theorem Good.claiming (h : x.Good) (ha : x.state.isAlive = true) (claim : Bool) :
    ({ x with stepClaim := claim } : Port).Good := by
  have hfit := h.fit (present_of_laneOpen (laneOpen_of_alive ha))
  have hlane : x.lane ≠ .closed := fun hl => by
    have := h.lane.1 hl
    rw [laneOpen_of_alive ha] at this; cases this
  exact good_of_alive ha
    ⟨hfit.plugged, hfit.record, hfit.cut, hfit.boots, hfit.trips, hfit.recovery, hfit.silence⟩ hlane h.untimed
    h.cursorFits h.phraseFits

/-- A grant point keeps a sound port sound (R61). -/
theorem Good.granted (h : x.Good) : x.granted.Good := by
  unfold Port.granted
  split_ifs with hl hk hc
  · exact h.sending (alive_of_claim h (.inl hk)) hl (n := .keep) (alive_of_claim h (.inl hk))
  · have ha := alive_of_claim h (.inr hc)
    split
    · rename_i ph hph
      obtain ⟨n, l, rfl, hs⟩ := chooseStep_fits hph
      exact h.sending ha hl hs
    · exact h.claiming ha false
  · exact h
  · exact h

theorem Good.claimRaised (h : x.Good) : x.claimRaised.Good := by
  by_cases ha : x.state.isAlive = true
  · exact h.claiming ha _
  · have hc : (stepCall x.state x.target).isSome = false := by
      by_contra hc
      exact ha (alive_of_stepCall (Bool.eq_true_of_not_eq_false hc))
    have hsame : x.claimRaised = x := by simp [Port.claimRaised, hc]
    rw [hsame]; exact h

/-- A claim raised in an alive port with nothing in flight. -/
theorem Good.reachedIfGoal (h : x.Good) : x.reachedIfGoal.Good := by
  unfold Port.reachedIfGoal
  split
  · exact ⟨h.lane, h.pulse, h.untimed, h.timed, h.still, h.plugged, h.record, fun ht => ⟨(h.resting ht).1, rfl⟩,
      h.cut, h.reason, h.attempts, Nat.zero_le _, h.silence, h.tuning, h.phrase⟩
  · exact h

/-! ## States entered -/

/-- The lane is open, and what is in flight on it is a phrase that the state sends. -/
def LaneFits (st : PState) (x : Port) : Prop :=
  x.lane ≠ .closed ∧ ∀ ph, x.lane.phrase? = some ph →
    ph.name.sentIn st = true ∧ 1 ≤ ph.attempt ∧ ph.attempt ≤ x.lane.lastAttempt ∧ ph.next < ph.symbols.length

theorem laneFits_of_none {st : PState} (hl : x.lane ≠ .closed) (h : x.lane.phrase? = none) : x.LaneFits st :=
  ⟨hl, fun ph hph => by rw [h] at hph; cases hph⟩

theorem laneFits_of_free {st : PState} (hl : x.lane = .free) : x.LaneFits st :=
  laneFits_of_none (by rw [hl]; exact Lane.noConfusion) (by rw [hl]; rfl)

/-- An alive state other than TUNING entered by a present port. -/
theorem entered_good {st : PState} (b : Word) (hfit : x.Fit) (hl : x.LaneFits st) (ha : st.isAlive = true)
    (ht : st ≠ .tuning) (hst : x.state ≠ st) : (x.entered st b).Good := by
  have hfit' := hfit.entered st b
  rw [entered_of_ne b hst] at hfit' ⊢
  exact good_of_alive ha hfit' hl.1 (fun _ => rfl) (cursorFits_of_clear ht (if_neg ht) (if_neg ht)) hl.2

theorem readied_good (b : Word) (hfit : x.Fit) (hl : x.LaneFits .ready) (hst : x.state ≠ .ready) :
    (x.readied b).Good :=
  (entered_good b hfit hl rfl (by decide) hst).reachedIfGoal.claimRaised

theorem pausedEntered_good (b : Word) (hfit : x.Fit) (hl : x.lane = .free) (hst : x.state ≠ .paused) :
    (x.pausedEntered b).Good :=
  (entered_good b hfit (laneFits_of_free hl) rfl (by decide) hst).reachedIfGoal.claimRaised

theorem tuned_good (b : Word) (hfit : x.Fit) (hl : x.LaneFits .ready) (hst : x.state ≠ .ready) :
    (x.tuned b).Good :=
  readied_good b (x := { x with stale := false, cursor := 0, restart := false })
    ⟨hfit.plugged, hfit.record, hfit.cut, hfit.boots, hfit.trips, hfit.recovery, hfit.silence⟩ hl hst

/-- The timer of PAUSING and RESUMING at another value (R4). -/
theorem Good.timed_anew (h : x.Good) (hst : x.state = .pausing ∨ x.state = .resuming) (d : Deadline) :
    ({ x with timer := d } : Port).Good := by
  have hmay : x.state.mayTime = true := by rcases hst with hs | hs <;> rw [hs] <;> rfl
  have halways : x.state.alwaysTimed = false := by rcases hst with hs | hs <;> rw [hs] <;> rfl
  exact ⟨h.lane, h.pulse, fun hm => absurd (hmay.symm.trans hm) (by decide),
    fun ht => absurd (halways.symm.trans ht) (by decide), h.still,
    h.plugged, h.record, h.resting, h.cut, h.reason, h.attempts, h.recovery, h.silence, h.tuning, h.phrase⟩

theorem pausingEntered_good (b : Word) (hfit : x.Fit) (hl : x.lane = .free) (hst : x.state ≠ .pausing) :
    (x.pausingEntered b).Good :=
  ((entered_good b hfit (laneFits_of_free hl) rfl (by decide) hst).timed_anew (.inl (by simp)) _).claimRaised

theorem resumingEntered_good (b : Word) (hfit : x.Fit) (hl : x.lane = .free) (hst : x.state ≠ .resuming) :
    (x.resumingEntered b).Good :=
  ((entered_good b hfit (laneFits_of_free hl) rfl (by decide) hst).timed_anew (.inr (by simp)) _).claimRaised

theorem stoppingEntered_good (b : Word) (hfit : x.Fit) (hl : x.lane = .free) (hst : x.state ≠ .stopping) :
    (x.stoppingEntered b).Good := by
  have hfit' := hfit.entered .stopping b
  unfold stoppingEntered
  rw [entered_of_ne b hst] at hfit' ⊢
  refine good_of_timed rfl
    ⟨hfit'.plugged, hfit'.record, hfit'.cut, hfit'.boots, hfit'.trips, hfit'.recovery, hfit'.silence⟩ ?_ rfl
    ⟨rfl, rfl, rfl⟩ ⟨rfl, rfl⟩ ?_
  · simp [hl, PState.laneOpen]
  · rw [hl]; rfl

/-- TUNING entered with no phrase of the part in flight (R81). -/
theorem tuningEntered_good (b : Word) (hfit : x.Fit) (hl : x.lane ≠ .closed) (hnone : x.lane.phrase? = none)
    (htimer : x.state = .tuning → x.timer = none) : (x.tuningEntered b).Good := by
  have hsend : (x.profileToSend b).Fit := by
    have h := hfit.entered .tuning b
    exact ⟨h.plugged, h.record, h.cut, h.boots, h.trips, h.recovery, h.silence⟩
  have hlane : (x.profileToSend b).lane = x.lane := by
    unfold profileToSend entered; split <;> rfl
  have hstate : (x.profileToSend b).state = .tuning := by simp [profileToSend]
  have huntimed : (x.profileToSend b).timer = none := by
    unfold profileToSend entered
    split
    · exact htimer ‹_›
    · rfl
  unfold tuningEntered
  split <;> rename_i hp
  · exact tuned_good b hsend (laneFits_of_none (by rw [hlane]; exact hl) (by rw [hlane]; exact hnone))
      (by rw [hstate]; decide)
  · refine (good_of_alive (by rw [hstate]; rfl) hsend (by rw [hlane]; exact hl) (fun _ => huntimed) ?_
      (phraseFits_of_none (by rw [hlane]; exact hnone))).claimRaised
    have hprofile : (x.profileToSend b).profile = x.profile := by simp [profileToSend]
    unfold CursorFits
    rw [if_pos hstate, hprofile]
    exact List.length_pos_iff.2 hp

theorem tuningEntered_good_of_free (b : Word) (hfit : x.Fit) (hl : x.lane = .free)
    (htimer : x.state = .tuning → x.timer = none) : (x.tuningEntered b).Good :=
  tuningEntered_good b hfit (by rw [hl]; exact Lane.noConfusion) (by rw [hl]; rfl) htimer

/-! ## The end of a phrase (R52) -/

theorem Good.laneFreed (h : x.Good) (hopen : x.state.laneOpen = true) (hr : x.restart = false) :
    x.laneFreed.Good :=
  ⟨by simp [Port.laneFreed, hopen], h.pulse, h.untimed, h.timed, h.still, h.plugged, h.record, h.resting, h.cut,
    h.reason, h.attempts, h.recovery, h.silence, h.cursorFits.of_lane hr rfl rfl rfl rfl, phraseFits_of_none rfl⟩

theorem Good.exchanged (h : x.Good) (hr : x.restart = false) : x.exchanged.Good := by
  unfold Port.exchanged
  split <;> rename_i ha
  · exact ⟨h.lane, h.pulse, h.untimed, h.timed, fun hn => absurd (ha.symm.trans hn) (by decide),
      h.plugged, h.record, h.resting,
      h.cut, h.reason, h.attempts, h.recovery, Nat.zero_le _, h.cursorFits.of_lane hr rfl rfl rfl rfl, h.phrase⟩
  · exact h

/-- The port as the end of a phrase leaves it to the sequencer. -/
def phraseOver (ok : Bool) (x : Port) : Port := if ok then x.laneFreed.exchanged else x.laneFreed

theorem phraseOver_kept (ok : Bool) (x : Port) :
    (x.phraseOver ok).lane = .free ∧ (x.phraseOver ok).state = x.state ∧ (x.phraseOver ok).timer = x.timer ∧
      (x.phraseOver ok).restart = x.restart ∧ (x.phraseOver ok).cursor = x.cursor ∧
      (x.phraseOver ok).profile = x.profile := by
  unfold phraseOver exchanged laneFreed
  split_ifs <;> exact ⟨rfl, rfl, rfl, rfl, rfl, rfl⟩

theorem Fit.phraseOver (h : x.Fit) (ok : Bool) : (x.phraseOver ok).Fit := by
  unfold Port.phraseOver
  split
  · exact h.laneFreed.exchanged
  · exact h.laneFreed

theorem Good.phraseOver (h : x.Good) (hopen : x.state.laneOpen = true) (hr : x.restart = false) (ok : Bool) :
    (x.phraseOver ok).Good := by
  unfold Port.phraseOver
  split
  · exact (h.laneFreed hopen hr).exchanged hr
  · exact h.laneFreed hopen hr

/-- The cursor moved on in TUNING, with no SET in flight (R82). -/
theorem tuning_good (hfit : x.Fit) (hl : x.lane = .free) (hst : x.state = .tuning) (htimer : x.timer = none)
    (hr : x.restart = false) (hc : x.cursor < x.profile.length) : x.Good :=
  good_of_alive (by rw [hst]; rfl) hfit (by rw [hl]; exact Lane.noConfusion) (fun _ => htimer)
    (by unfold CursorFits; rw [if_pos hst, hr]; exact hc) (phraseFits_of_none (by rw [hl]; rfl))

/-- A SET that ended OK (R83). -/
theorem setEnded_good (b : Word) (hfit : x.Fit) (hl : x.lane = .free) (hst : x.state = .tuning)
    (htimer : x.timer = none) : (x.setEnded b).Good := by
  have hne : x.state ≠ .ready := by rw [hst]; decide
  have hfit' : ({ x with cursor := 0, restart := false } : Port).Fit :=
    ⟨hfit.plugged, hfit.record, hfit.cut, hfit.boots, hfit.trips, hfit.recovery, hfit.silence⟩
  unfold setEnded
  split_ifs with hr hp hc
  · exact tuned_good b hfit' (laneFits_of_free hl) hne
  · exact (tuning_good hfit' hl hst htimer rfl (List.length_pos_iff.2 hp)).claimRaised
  · exact (tuning_good (x := { x with cursor := x.cursor + 1 })
      ⟨hfit.plugged, hfit.record, hfit.cut, hfit.boots, hfit.trips, hfit.recovery, hfit.silence⟩ hl hst htimer
      (by simpa using hr) hc).claimRaised
  · exact tuned_good b hfit (laneFits_of_free hl) hne

/-- What the sequencer makes of a step phrase that has ended (Table 1-3a). -/
theorem stepEnded_good {n : PhraseName} (b : Word) (ok : Bool) (hfit : x.Fit) (hl : x.lane = .free)
    (hs : n.sentIn x.state = true) (hkeep : n ≠ .keep) (htimer : x.state = .tuning → x.timer = none) :
    (x.stepEnded n ok b).Good := by
  have halive : x.state.isAlive = true := by
    cases n <;> cases hst : x.state <;> simp_all [PhraseName.sentIn, PState.isAlive]
  have hfault : (x.faultEntered .link b).Good := by
    refine faultEntered_good .link b ?_ hfit.plugged (by rw [hfit.record]; rfl) hfit.cut hfit.recovery
      ⟨Nat.le_succ_of_le hfit.boots, Nat.le_succ_of_le hfit.trips⟩ fun hon => ?_
    · cases hst : x.state <;> simp_all [PState.isAlive, PState.isFaulted]
    · rw [railOn_of_alive halive] at hon; cases hon
  cases n with
  | keep => exact absurd rfl hkeep
  | halt => exact stoppingEntered_good b hfit hl (by rintro h; rw [h] at halive; cases halive)
  | set =>
    have hst : x.state = .tuning := by simpa [PhraseName.sentIn] using hs
    cases ok
    · exact hfault
    · exact setEnded_good b hfit hl hst (htimer hst)
  | hold =>
    cases ok
    · exact hfault
    · exact pausingEntered_good b hfit hl (by rintro h; rw [h] at hs; cases hs)
  | release =>
    cases ok
    · exact hfault
    · exact resumingEntered_good b hfit hl (by rintro h; rw [h] at hs; cases hs)

/-- The end of a KEEP (R86). -/
theorem Good.keepPassed (h : x.Good) (hl : x.lane = .free) (b : Word) : (x.keepPassed b).Good := by
  unfold Port.keepPassed
  split
  · rename_i hst
    have hopen : x.state.laneOpen = true := by rw [hst.1]; rfl
    exact tuningEntered_good_of_free b (h.fit (present_of_laneOpen hopen)) hl fun ht => by rw [hst.1] at ht; cases ht
  · exact h

/-- The end of a phrase of the part keeps a sound port sound (R52). -/
theorem phraseEnded_good {ph : Phrase} {d : Nat} (h : x.Good) (hl : x.lane = .sending ph d) (ok : Bool) (b : Word) :
    (x.phraseEnded ph ok b).Good := by
  obtain ⟨hs, -⟩ := h.phrase ph (by rw [hl]; rfl)
  have hopen := h.laneOpen (by rw [hl]; exact Lane.noConfusion)
  have hfit := (h.fit (present_of_laneOpen hopen)).phraseOver ok
  obtain ⟨klane, kstate, ktimer, -⟩ := phraseOver_kept ok x
  have hresult : x.phraseEnded ph ok b =
      (if ph.name = .keep then (x.phraseOver ok).keepPassed b
        else (x.phraseOver ok).stepEnded ph.name ok b).granted := rfl
  rw [hresult]
  split <;> rename_i hkeep
  · have hr := h.restart_of_free (by rw [hl]; simp [Lane.carries, Lane.phrase?, hkeep])
    exact ((h.phraseOver hopen hr ok).keepPassed klane b).granted
  · refine (stepEnded_good b ok hfit klane (by rw [kstate]; exact hs) hkeep fun ht => ?_).granted
    rw [kstate] at ht
    rw [ktimer]
    exact h.untimed (by rw [ht]; rfl)

end Port

end Sys2Proof.Machine
end

section
/-! Every event of a port keeps its invariant. -/

set_option Elab.async false

namespace Sys2Proof.Machine

namespace Port

variable {x y : Port}

/-! ## Phrases of the camera -/

theorem Good.endOfReception (h : x.Good) {rx : RxBuffer} (hl : x.lane = .receiving rx) :
    x.endOfReception.Good :=
  h.phraseOver (h.laneOpen (by rw [hl]; exact Lane.noConfusion)) (h.restart_of_free (by rw [hl]; rfl)) true

theorem endOfReception_lane (x : Port) : x.endOfReception.lane = .free := (phraseOver_kept true x).1

theorem Good.present (h : x.Good) (hl : x.lane ≠ .closed) : x.present = true :=
  present_of_laneOpen (h.laneOpen hl)

theorem not_faulted_of_present (h : x.present = true) : x.state.isFaulted = false := by
  simp only [Port.present, Bool.and_eq_true, Bool.not_eq_true'] at h
  exact h.2

theorem noRecord_of_link : (PState.faulted .link).noRecord = false := rfl

/-- HELLO at a free lane (R22, R31). -/
theorem Good.helloTaken (h : x.Good) (hl : x.lane = .free) (c f b) : (x.helloTaken c f b).Good := by
  have hp := h.present (by rw [hl]; exact Lane.noConfusion)
  have hfit := h.fit hp
  have hset : ({ x with firmware := some f } : Port).Good := h.aside
  unfold Port.helloTaken
  split_ifs with hclass hboot halive
  · exact hset.faultEntered hp rfl b
  · refine tuningEntered_good_of_free b ?_ hl fun ht => ?_
    · exact ⟨hfit.plugged, hfit.record, hfit.cut, Nat.zero_le _, Nat.zero_le _, hfit.recovery, Nat.zero_le _⟩
    · exact absurd (hboot.symm.trans ht) (by decide)
  · refine tuningEntered_good_of_free b ?_ hl fun _ => rfl
    exact ⟨hfit.plugged, hfit.record, hfit.cut, Nat.zero_le _, Nat.zero_le _, hfit.recovery, Nat.zero_le _⟩
  · exact hset

theorem Good.settledTaken (h : x.Good) (hl : x.lane = .free) (b) : (x.settledTaken b).Good := by
  have hfit := h.fit (h.present (by rw [hl]; exact Lane.noConfusion))
  unfold Port.settledTaken
  split <;> rename_i hst
  · exact pausedEntered_good b hfit hl (by rw [hst]; decide)
  · exact h

theorem Good.awakeTaken (h : x.Good) (hl : x.lane = .free) (b) : (x.awakeTaken b).Good := by
  have hfit := h.fit (h.present (by rw [hl]; exact Lane.noConfusion))
  unfold Port.awakeTaken
  split_ifs with hst hstale
  · exact tuningEntered_good_of_free b hfit hl fun ht => absurd (hst.symm.trans ht) (by decide)
  · exact readied_good b hfit (laneFits_of_free hl) (by rw [hst]; decide)
  · exact h

theorem ne_off_of_alive (h : x.state.isAlive = true) : x.state ≠ .off := by
  rintro hs; rw [hs] at h; cases h

theorem present_of_alive (h : x.state.isAlive = true) : x.present = true :=
  present_of_laneOpen (laneOpen_of_alive h)

theorem Good.partingTaken (h : x.Good) (stamp b) : (x.partingTaken stamp b).Good := by
  unfold Port.partingTaken
  split_ifs with ha hst
  · have hfit := (h.fit (present_of_alive ha)).railCut .parted
    have hcut := railCut_of_good h .parted
    refine wentOff_good b hfit.plugged hfit.record hfit.cut ?_ ?_ ?_
    · simpa using ne_off_of_alive ha
    · change (x.railCut .parted).lane = .closed
      rw [hcut]
    · change (x.railCut .parted).wakePulse = none
      rw [hcut]
  · exact railCut_wentOff_good b _ h (present_of_laneOpen (by rw [hst]; rfl)) (by rw [hst]; decide)
  · exact h

/-! ## Lapses, cuts and targets -/

theorem Good.lapsed (h : x.Good) (ha : x.state.isAlive = true) (b) : (x.lapsed b).Good := by
  have hset : ({ x with stale := true } : Port).Good := h.aside
  have hp := present_of_alive ha
  unfold Port.lapsed
  split_ifs with htar hrec
  · exact railCut_wentOff_good b _ hset hp (ne_off_of_alive ha)
  · have hfit := (hset.fit hp).railCut .lapsed
    have hcut := railCut_of_good hset .lapsed
    refine queuedUp_good b ⟨hfit.plugged, hfit.record, hfit.cut, hfit.boots, hfit.trips, ?_, hfit.silence⟩ ?_ ?_ ?_
    · exact hrec
    · rw [show ({ (({ x with stale := true } : Port).railCut .lapsed) with recovery := x.recovery + 1 } : Port).state =
        x.state from railCut_state _ _]
      rintro hs; rw [hs] at ha; cases ha
    · change (({ x with stale := true } : Port).railCut .lapsed).lane = .closed
      rw [hcut]
    · change (({ x with stale := true } : Port).railCut .lapsed).wakePulse = none
      rw [hcut]
  · exact hset.faultEntered hp rfl b

/-- The rail of a port that has given up its claim or slot (R3). -/
theorem Good.gaveUp (h : x.Good) : x.gaveUp.Good := by
  unfold Port.gaveUp told
  split_ifs
  · exact h.aside
  · exact h.aside
  · exact h

theorem present_gaveUp : x.gaveUp.present = x.present := by unfold Port.present; rw [gaveUp_state]

theorem Good.cutOff (h : x.Good) (hp : x.present = true) (hst : x.state ≠ .off) (b) : (x.cutOff b).Good :=
  railCut_wentOff_good b _ h.gaveUp (by rw [present_gaveUp]; exact hp) (by simpa using hst)

/-! ### The cut mark -/

/-- The port with the cut mark at a value (R12). -/
def marked (c : Bool) (x : Port) : Port := { x with cut := c }

variable (c : Bool) (b : Word)

theorem marked_entered (st : PState) : (x.marked c).entered st b = (x.entered st b).marked c := by
  unfold entered
  by_cases hst : x.state = st
  · rw [if_pos hst, if_pos (show (x.marked c).state = st from hst)]
  · rw [if_neg hst, if_neg (show ¬(x.marked c).state = st from hst)]; rfl

theorem marked_told (m : GovMsg) : (x.marked c).told m = (x.told m).marked c := rfl

theorem marked_queuedUp : (x.marked c).queuedUp b = (x.queuedUp b).marked c := by
  rw [queuedUp, marked_entered]; rfl

theorem marked_railCut (why : EndReason) : (x.marked c).railCut why = (x.railCut why).marked c := by
  unfold railCut
  by_cases hon : x.railOn = true
  · rw [if_pos hon, if_pos (show (x.marked c).railOn = true from hon)]; rfl
  · rw [if_neg hon, if_neg (show ¬(x.marked c).railOn = true from hon)]

theorem marked_gaveUp : (x.marked c).gaveUp = x.gaveUp.marked c := by
  unfold gaveUp
  by_cases hq : x.state = .queued
  · rw [if_pos hq, if_pos (show (x.marked c).state = .queued from hq)]; rfl
  · rw [if_neg hq, if_neg (show ¬(x.marked c).state = .queued from hq)]
    by_cases hw : x.state.isWarming = true
    · rw [if_pos hw, if_pos (show (x.marked c).state.isWarming = true from hw)]; rfl
    · rw [if_neg hw, if_neg (show ¬(x.marked c).state.isWarming = true from hw)]

theorem marked_wentOff : (x.marked c).wentOff b = (x.wentOff b).marked c := by
  have hclear : (x.marked c).countsCleared.entered .off b = (x.countsCleared.entered .off b).marked c :=
    marked_entered (x := x.countsCleared) c b .off
  unfold wentOff
  rw [hclear]
  by_cases ht : x.target = .off
  · rw [if_pos ht, if_pos (show (x.marked c).target = .off from ht)]; rfl
  · rw [if_neg ht, if_neg (show ¬(x.marked c).target = .off from ht), marked_queuedUp]

theorem marked_cutOff : (x.marked c).cutOff b = (x.cutOff b).marked c := by
  rw [cutOff, marked_gaveUp, marked_railCut, marked_wentOff]; rfl

theorem marked_calledAgain (old : Target) : (x.marked c).calledAgain old = (x.calledAgain old).marked c :=
  (calledAgain_timed old x x.timer c).trans (by rw [x.calledAgain_eq old]; rfl)

theorem marked_targetActed (old : Target) : (x.marked c).targetActed old b = (x.targetActed old b).marked c := by
  have hst : (x.marked c).state = x.state := rfl
  have htar : (x.marked c).target = x.target := rfl
  unfold targetActed
  rw [hst, htar]
  cases x.state <;> simp only
  case off => split <;> simp only [marked_queuedUp]
  case queued => split <;> simp only [marked_told, marked_wentOff]
  case powering | booting => split <;> simp only [marked_railCut, marked_gaveUp, marked_wentOff]
  case tuning | ready | paused => exact marked_calledAgain c old
  case pausing => exact marked_calledAgain (x := x.waitedFor .paused Config.holdLimitMs) c old
  case resuming => exact marked_calledAgain (x := x.waitedFor .awake x.resumeMs) c old

/-- A target set is carried out with the cut mark clear at its end (R12). -/
theorem carriedOut_marked (t : TargetSet) (old : Target) :
    x.carriedOut t old b =
      if t.cut = true ∧ (x.state = .queued ∨ x.railOn = true) then (x.marked false).cutOff b
      else (x.marked false).targetActed old b := by
  have hset : ({ x with cut := t.cut } : Port) = x.marked t.cut := rfl
  have hclear : ∀ z : Port, ({ z.marked t.cut with cut := false } : Port) = z.marked false := fun _ => rfl
  unfold carriedOut
  simp only [hset]
  split
  · rw [marked_cutOff, hclear, marked_cutOff]
  · rw [marked_targetActed, hclear, marked_targetActed]

/-! ### Target sets -/

theorem Good.calledAgain (h : x.Good) (old : Target) : (x.calledAgain old).Good := by
  unfold Port.calledAgain
  split
  · exact h.claimRaised.granted
  · exact h

theorem gaveUp_wires (x : Port) :
    x.gaveUp.lane = x.lane ∧ x.gaveUp.wakePulse = x.wakePulse ∧ x.gaveUp.state = x.state := by
  unfold gaveUp; split_ifs <;> exact ⟨rfl, rfl, rfl⟩

/-- Acting on a target in a state other than OFF (Table 1-3). -/
theorem Good.targetActed (h : x.Good) (hp : x.present = true) (hst : x.state ≠ .off) (old : Target) :
    (x.targetActed old b).Good := by
  have hfit := h.fit hp
  unfold Port.targetActed
  cases hs : x.state <;> simp only
  case off => exact absurd hs hst
  case queued =>
    split
    · obtain ⟨hlane, hwake, -⟩ := h.railDown (by rw [hs]; rfl)
      exact wentOff_good b hfit.plugged hfit.record hfit.cut hst hlane hwake
    · exact h
  case powering | booting =>
    split
    · have hcut := railCut_of_good h .cancelled
      have hfit' := (hfit.railCut .cancelled).gaveUp
      obtain ⟨klane, kwake, kstate⟩ := gaveUp_wires (x.railCut .cancelled)
      exact wentOff_good b hfit'.plugged hfit'.record hfit'.cut (by rw [kstate, railCut_state]; exact hst)
        (by rw [klane, hcut]) (by rw [kwake, hcut])
    · exact h
  case tuning | ready | paused => exact h.calledAgain old
  case pausing => exact (h.timed_anew (.inl hs) _).calledAgain old
  case resuming => exact (h.timed_anew (.inr hs) _).calledAgain old
  all_goals exact h

/-- A sound port in a state other than OFF with another wish (R12). -/
theorem Good.wishing (h : x.Good) (hst : x.state.targetIsOff = false) {t : Target} {l : List EntryNo} {n : Nat}
    (hn : n ≤ 2) : ({ x with target := t, waiters := l, recovery := n } : Port).Good :=
  ⟨h.lane, h.pulse, h.untimed, h.timed, h.still, h.plugged, h.record,
    fun ht => absurd (hst.symm.trans ht) (by decide), h.cut, h.reason, h.attempts, hn, h.silence, h.tuning, h.phrase⟩

theorem present_of_taken {t : TargetSet} (h : declines x t = none) : x.present = true := by
  obtain ⟨ha, hf, -⟩ := declines_none h
  simp [Port.present, ha, hf]

theorem targetIsOff_of_present (hp : x.present = true) (hst : x.state ≠ .off) : x.state.targetIsOff = false := by
  cases hs : x.state <;>
    simp_all [Port.present, PState.targetIsOff, PState.isAbsent, PState.isFaulted]

theorem storedFor_marked (t : TargetSet) (stamp : Word) (x : Port) :
    (x.storedFor t stamp).marked false =
      { x with
        stamp := stamp, waiters := if t.target = x.target then x.waiters else [], target := t.target
        recovery := if x.state = t.target.goal then 0 else x.recovery, cut := false } := rfl

theorem recovery_stored (h : x.Good) (t : TargetSet) :
    (if x.state = t.target.goal then 0 else x.recovery) ≤ 2 := by
  split
  · exact Nat.zero_le _
  · exact h.recovery

/-- A target set carried out keeps a sound port sound (R12). -/
theorem Good.carriedOut_stored (h : x.Good) {t : TargetSet} (ht : declines x t = none) (stamp : Word)
    (old : Target) : ((x.storedFor t stamp).carriedOut t old b).Good := by
  have hp := present_of_taken ht
  have hfit := h.fit hp
  have hrec := recovery_stored h t
  have hclear : ({ x with stamp := stamp, cut := false } : Port).Good := by
    have : ({ x with cut := false } : Port) = x := by rw [← h.cut]
    rw [show ({ x with stamp := stamp, cut := false } : Port) = { ({ x with cut := false } : Port) with stamp := stamp }
      from rfl, this]
    exact h.aside
  rw [carriedOut_marked]
  by_cases hoff : x.state = .off
  · have hrail : (x.storedFor t stamp).railOn = false := by
      rw [storedFor_railOn]; unfold railOn; rw [hoff]; rfl
    rw [if_neg (by rw [storedFor_state, hoff, hrail]; simp)]
    obtain ⟨hxtar, hxwait⟩ := h.resting (by rw [hoff]; rfl)
    obtain ⟨hlane, hwake, htimer, hclaim, hsilence, hkeep, hcursor, hrestart⟩ := h.railDown (by rw [hoff]; rfl)
    unfold Port.targetActed
    rw [storedFor_marked]
    simp only [hoff]
    split <;> rename_i htar
    · refine good_of_waiting (.inl rfl) ?_ ?_ fun _ => ⟨htar, ?_⟩
      · exact ⟨hfit.plugged, hfit.record, rfl, hfit.boots, hfit.trips, hoff ▸ hrec, hfit.silence⟩
      · exact ⟨hlane, hwake, htimer, hclaim, hsilence, hkeep, hcursor, hrestart⟩
      · simp [hxwait]
    · exact queuedUp_good b ⟨hfit.plugged, hfit.record, rfl, hfit.boots, hfit.trips, hoff ▸ hrec, hfit.silence⟩
        (show PState.off ≠ .queued by decide) hlane hwake
  · have hwish : ((x.storedFor t stamp).marked false).Good :=
      hclear.wishing (targetIsOff_of_present hp hoff) hrec
    split
    · exact hwish.cutOff hp hoff b
    · exact hwish.targetActed b hp hoff old

/-- A target set that leaves a request waiting does not leave the port in OFF (R14). -/
theorem carriedOut_not_off (h : x.Good) {t : TargetSet} (ht : declines x t = none)
    (hw : answerTo x t = .waiting) (stamp : Word) (old : Target) :
    ((x.storedFor t stamp).carriedOut t old b).state.targetIsOff = false := by
  have hgood := h.carriedOut_stored b ht stamp old
  have haim := carriedOut_aim (x := x) (t := t) (x.storedFor t stamp) rfl rfl old b
  rw [answerTo_taken ht] at hw
  by_contra hoff
  have hoff := Bool.eq_true_of_not_eq_false hoff
  obtain ⟨htar, -⟩ := hgood.resting hoff
  have hgoal : x.state ≠ t.target.goal := fun hg => by rw [if_pos hg] at hw; cases hw
  have hsent : x.sentOff t = false := by
    rw [if_neg hgoal] at hw
    by_contra hs
    rw [if_pos (Bool.eq_true_of_not_eq_false hs)] at hw; cases hw
  have htarget : t.target = .off := by
    have haim1 := congrArg (·.1) haim
    rw [hsent, if_neg Bool.false_ne_true] at haim1
    split at haim1 <;> exact haim1.symm.trans htar
  have hcut := not_cutAtOnce hsent fun _ => htarget
  have hne : x.state ≠ .off := by rw [htarget] at hgoal; exact hgoal
  have hstays : ((x.storedFor t stamp).carriedOut t old b).state = x.state := by
    have hcond : ¬(t.cut = true ∧ ((x.storedFor t stamp).state = .queued ∨ (x.storedFor t stamp).railOn = true)) := by
      simpa [cutAtOnce] using hcut
    obtain ⟨hq, hwarm⟩ : x.state ≠ .queued ∧ x.state.isWarming = false := by
      simpa [sentOff, htarget, not_or] using (by simpa [sentOff, htarget] using hsent :
        (x.state ≠ .queued ∧ x.state.isWarming = false) ∧ (t.cut = true → x.railOn = false)).1
    have hcalled : ∀ z : Port, (z.calledAgain old).state = z.state := fun z => by rw [calledAgain_eq]
    rw [carriedOut_marked, if_neg hcond]
    unfold Port.targetActed
    rw [storedFor_marked]
    cases hs : x.state <;> simp_all [PState.isWarming, waitedFor]
  rw [hstays, targetIsOff_of_present (present_of_taken ht) hne] at hoff
  cases hoff

theorem Good.targetTaken (h : x.Good) {t : TargetSet} (ht : declines x t = none) (ref : Option EntryNo)
    (stamp : Word) : (x.targetTaken t ref stamp b).Good := by
  have hgood := h.carriedOut_stored b ht stamp x.target
  unfold Port.targetTaken
  dsimp only
  split <;> rename_i hw
  · exact ⟨hgood.lane, hgood.pulse, hgood.untimed, hgood.timed, hgood.still, hgood.plugged, hgood.record,
      fun hoff => absurd ((carriedOut_not_off b h ht hw stamp x.target).symm.trans hoff) (by decide), hgood.cut,
      hgood.reason, hgood.attempts, hgood.recovery, hgood.silence, hgood.tuning, hgood.phrase⟩
  · exact hgood

end Port

end Sys2Proof.Machine
end

section
/-! Every event of a port keeps its invariant: plugs, profiles, deadlines and the lane. -/

set_option Elab.async false

namespace Sys2Proof.Machine

namespace Port

variable {x y : Port} (b : Word)

/-! ## Plugs and identities -/

/-- A debounced insertion (R68). -/
theorem Good.inserted (h : x.Good) (hplug : x.plugged = false) (ticket : Nat) : (x.inserted ticket b).Good := by
  have hst : x.state = .empty := by
    have := h.plugged
    rw [hplug] at this
    simpa [bne] using this.symm
  obtain ⟨hlane, hwake, -⟩ := h.railDown (by rw [hst]; rfl)
  have hcounts := h.attempts
  have hrest := h.resting (by rw [hst]; rfl)
  have hrecord := h.record
  rw [hst] at hcounts hrecord
  have hdown : (({ x with plugged := true, idResults := [] } : Port).entered .identifying b).railDown :=
    entered_railDown b (by rw [show ({ x with plugged := true, idResults := [] } : Port).state = x.state from rfl, hst]; decide)
      rfl hlane hwake
  have hgood : (({ x with plugged := true, idResults := [] } : Port).entered .identifying b).Good := by
    rw [entered_of_ne b (by rw [show ({ x with plugged := true, idResults := [] } : Port).state = x.state from rfl, hst]; decide)] at hdown ⊢
    exact good_of_absent rfl hdown rfl (Option.isNone_iff_eq_none.1 hrecord) hrest h.cut hcounts h.recovery
  exact hgood.aside

theorem removed_wires (waits : Bool) (hst : x.state ≠ .empty) (h : x.Good) : (x.removed waits b).railDown := by
  rw [removed_eq waits b hst]
  by_cases hon : x.railOn = true
  · simp [railDown, hon]
  · obtain ⟨hlane, hwake, -⟩ := h.railDown (by simpa [railOn] using hon)
    simp [railDown, hon, hlane, hwake]

/-- A debounced removal (R29). -/
theorem Good.removed (h : x.Good) (hst : x.state ≠ .empty) (waits : Bool) : (x.removed waits b).Good := by
  have hdown := removed_wires b waits hst h
  rw [removed_eq waits b hst] at hdown ⊢
  exact good_of_absent rfl hdown rfl rfl ⟨rfl, rfl⟩ h.cut ⟨Nat.zero_le _, Nat.zero_le _⟩ (Nat.zero_le _)

/-- A port faulted before its record was read is read again (R77). -/
theorem Good.identifiedAgain (h : x.Good) {r : FaultReason} (hst : x.state = .faulted r)
    (hr : (PState.faulted r).noRecord = true) (ticket : Nat) : (x.identifiedAgain ticket b).Good := by
  have hne : x.state ≠ .identifying := by rw [hst]; exact PState.noConfusion
  obtain ⟨hlane, hwake, -⟩ := h.railDown (by rw [hst]; rfl)
  have hcounts := h.attempts
  have hrecord := h.record
  have hplug := h.plugged
  rw [hst, hr] at hcounts hrecord
  rw [hst] at hplug
  have hdown : (x.entered .identifying b).railDown := entered_railDown b hne rfl hlane hwake
  have hgood : (x.entered .identifying b).Good := by
    rw [entered_of_ne b hne] at hdown ⊢
    exact good_of_absent rfl hdown hplug (Option.isNone_iff_eq_none.1 hrecord) (h.resting (by rw [hst]; rfl)) h.cut
      (by simpa [PState.isFaulted] using hcounts) h.recovery
  exact hgood.aside

/-- CLEAR (R8). -/
theorem Good.clearTaken (h : x.Good) (ticket : Nat) : (x.clearTaken ticket b).Good := by
  unfold Port.clearTaken
  split
  · exact h.identifiedAgain b ‹_› rfl ticket
  · exact h.identifiedAgain b ‹_› rfl ticket
  · rename_i r hnoack hbad hst
    have hr : (PState.faulted r).noRecord = false := by cases r <;> simp_all [PState.noRecord]
    obtain ⟨hlane, hwake, -⟩ := h.railDown (by rw [hst]; rfl)
    refine wentOff_good b ?_ (by rw [h.record, hst, hr]) h.cut (by rw [hst]; exact PState.noConfusion) hlane hwake
    rw [h.plugged, hst]; rfl
  · exact h

/-- The result of an identity read (R74). -/
theorem Good.resultTaken (h : x.Good) (r : IdResult) : (x.resultTaken r b).Good := by
  unfold Port.resultTaken
  split
  · rename_i hst
    obtain ⟨hlane, hwake, -⟩ := h.railDown (by rw [hst]; rfl)
    have hplug : x.plugged = true := by rw [h.plugged, hst]; rfl
    have hrecord := h.record
    have hcounts := h.attempts
    rw [hst] at hrecord hcounts
    cases r with
    | valid c =>
      exact wentOff_good b (x := { x with classRecord := some c }) hplug rfl h.cut
        (show x.state ≠ .off by rw [hst]; decide) hlane hwake
    | plugBad =>
      exact faultEntered_good .plugBad b (by rw [hst]; rfl) hplug hrecord h.cut h.recovery hcounts
        fun _ => ⟨hlane, hwake⟩
    | plugNoack =>
      exact faultEntered_good .plugNoack b (by rw [hst]; rfl) hplug hrecord h.cut h.recovery hcounts
        fun _ => ⟨hlane, hwake⟩
  · exact h

/-! ## Profiles (R85, R87) -/

/-- The profile at another value where the cursor does not name an entry of it. -/
theorem Good.profiled (h : x.Good) (hst : x.state ≠ .tuning) (l : Profile) (c : Bool) :
    ({ x with profile := l, stale := c } : Port).Good := by
  have hc := h.tuning
  rw [if_neg hst] at hc
  exact ⟨h.lane, h.pulse, h.untimed, h.timed, h.still, h.plugged, h.record, h.resting, h.cut, h.reason, h.attempts,
    h.recovery, h.silence, cursorFits_of_clear hst hc.1 hc.2, h.phrase⟩

/-- TUNING begun again with another profile, while no SET is in flight (R87). -/
theorem Good.tunedAnew (h : x.Good) (hst : x.state = .tuning) (hset : x.lane.carries .set = false) (l : Profile) :
    ((if l = [] then ({ x with profile := l, stale := true, cursor := 0 } : Port).tuned b
      else ({ x with profile := l, stale := true, cursor := 0 } : Port).claimRaised).granted).Good := by
  have hopen : x.state.laneOpen = true := by rw [hst]; rfl
  have hlane : x.lane ≠ .closed := fun hl => by rw [h.lane.1 hl] at hopen; cases hopen
  have hfit := h.fit (present_of_laneOpen hopen)
  have hfit' : ({ x with profile := l, stale := true, cursor := 0 } : Port).Fit :=
    ⟨hfit.plugged, hfit.record, hfit.cut, hfit.boots, hfit.trips, hfit.recovery, hfit.silence⟩
  split <;> rename_i hl
  · refine (tuned_good b hfit' ⟨hlane, fun ph hph => ?_⟩ (show x.state ≠ .ready by rw [hst]; decide)).granted
    obtain ⟨hs, hrest⟩ := h.phrase ph hph
    refine ⟨?_, hrest⟩
    have hname : ph.name ≠ .set := fun hn => by
      change x.lane.phrase? = some ph at hph
      simp [Lane.carries, hph, hn] at hset
    rw [hst] at hs
    cases hn : ph.name <;> simp_all [PhraseName.sentIn, PState.isAlive]
  · refine (Good.claimRaised (good_of_alive (x := { x with profile := l, stale := true, cursor := 0 })
      (show x.state.isAlive = true by rw [hst]; rfl) hfit' hlane h.untimed ?_
      h.phraseFits)).granted
    unfold CursorFits
    rw [if_pos hst, if_neg (by simpa using h.restart_of_free hset)]
    exact List.length_pos_iff.2 hl

/-- A profile replacement (R85, R87). -/
theorem Good.profileReplaced (h : x.Good) (l : Profile) : (x.profileReplaced l b).Good := by
  unfold Port.profileReplaced
  dsimp only
  split
  · rename_i hst
    split <;> rename_i hset
    · refine ⟨h.lane, h.pulse, h.untimed, h.timed, h.still, h.plugged, h.record, h.resting, h.cut, h.reason,
        h.attempts, h.recovery, h.silence, ?_, h.phrase⟩
      rw [if_pos hst]
      exact hset
    · exact h.tunedAnew b hst (by simpa using hset) l
  · rename_i hst
    have hgood := h.profiled (by rw [hst]; decide) l true
    split <;> rename_i hph
    · exact hgood
    · have hopen : x.state.laneOpen = true := by rw [hst]; rfl
      have hlane : x.lane ≠ .closed := fun hl => by rw [h.lane.1 hl] at hopen; cases hopen
      exact (tuningEntered_good b (hgood.fit (present_of_laneOpen hopen)) hlane (by simpa using hph)
        fun ht => absurd (hst.symm.trans ht) (by decide)).granted
  iterate 4
    rename_i hst
    exact h.profiled (by rw [hst]; decide) l true
  · rename_i hst _ _ _ _ _
    exact h.profiled hst l x.stale

/-! ## Deadlines -/

/-- The rail has settled (R21). -/
theorem Good.booted (h : x.Good) (hst : x.state = .powering) : (x.booted b).Good := by
  have hfit := h.fit (by unfold Port.present; rw [hst]; rfl)
  have hfit' := hfit.entered .booting b
  unfold Port.booted
  refine Good.granted ?_
  rw [entered_of_ne b (by rw [hst]; decide)] at hfit' ⊢
  exact good_of_timed rfl
    ⟨hfit'.plugged, hfit'.record, hfit'.cut, hfit'.boots, hfit'.trips, hfit'.recovery, hfit'.silence⟩
    (by simp [PState.laneOpen]) rfl ⟨rfl, rfl, rfl⟩ ⟨rfl, rfl⟩ rfl

theorem present_of_warming (hw : x.state.isWarming = true) : x.present = true := by
  unfold Port.present; cases hst : x.state <;> simp_all [PState.isWarming, PState.isAbsent, PState.isFaulted]

/-- A warming port goes back to QUEUED (R22, R34). -/
theorem requeued_good {why : EndReason} (hfit : x.Fit) (hw : x.state.isWarming = true) :
    (((x.railCut why).gaveUp).queuedUp b).Good := by
  have hon := railOn_of_warming hw
  obtain ⟨klane, kwake, kstate⟩ := gaveUp_wires (x.railCut why)
  refine queuedUp_good b (hfit.railCut why).gaveUp ?_ ?_ ?_
  · rw [kstate, railCut_state]; exact ne_queued_of_warming hw
  · rw [klane, railCut_of_on _ hon]
  · rw [kwake, railCut_of_on _ hon]

/-- A warming port is faulted, with its third boot-limit expiry or supply trip counted (R22, R34). -/
theorem faulted_of_warming {r : FaultReason} (hr : (PState.faulted r).noRecord = false) (hplug : x.plugged = true)
    (hrecord : x.classRecord.isNone = false) (hcut : x.cut = false) (hrec : x.recovery ≤ 2)
    (hcounts : x.bootAttempts ≤ 3 ∧ x.tripCount ≤ 3) (hw : x.state.isWarming = true) : (x.faultEntered r b).Good := by
  refine faultEntered_good r b ?_ hplug (by rw [hrecord, hr]) hcut hrec ?_ fun hon => ?_
  · exact not_faulted_of_present (present_of_warming hw)
  · rw [hr]; exact hcounts
  · rw [railOn_of_warming hw] at hon; cases hon

/-- The boot limit has expired (R22). -/
theorem Good.bootLimited (h : x.Good) (hst : x.state = .booting) : (x.bootLimited b).Good := by
  have hw : x.state.isWarming = true := by rw [hst]; rfl
  have hfit := h.fit (present_of_warming hw)
  unfold Port.bootLimited
  dsimp only
  split <;> rename_i hc
  · refine requeued_good b (x := { x with bootAttempts := x.bootAttempts + 1 }) ?_ hw
    exact ⟨hfit.plugged, hfit.record, hfit.cut, Nat.le_of_lt_succ hc, hfit.trips, hfit.recovery, hfit.silence⟩
  · exact faulted_of_warming b (x := { x with bootAttempts := x.bootAttempts + 1 }) rfl hfit.plugged hfit.record
      hfit.cut hfit.recovery ⟨Nat.succ_le_succ hfit.boots, Nat.le_succ_of_le hfit.trips⟩ hw

/-- A trip cut (R34). -/
theorem Good.tripCutTaken (h : x.Good) : (x.tripCutTaken b).Good := by
  unfold Port.tripCutTaken
  dsimp only
  split_ifs with hw hc
  · have hfit := h.fit (present_of_warming hw)
    refine requeued_good b
      (x := { x with fromGovernor := x.fromGovernor.tail, tripCount := x.tripCount + 1 }) ?_ hw
    exact ⟨hfit.plugged, hfit.record, hfit.cut, hfit.boots, Nat.le_of_lt_succ hc, hfit.recovery, hfit.silence⟩
  · have hfit := h.fit (present_of_warming hw)
    exact faulted_of_warming b
      (x := { x with fromGovernor := x.fromGovernor.tail, tripCount := x.tripCount + 1 }) rfl hfit.plugged hfit.record
      hfit.cut hfit.recovery ⟨Nat.le_succ_of_le hfit.boots, Nat.succ_le_succ hfit.trips⟩ hw
  · exact h.aside

/-- A grant (R20, R3). -/
theorem Good.grantTaken (h : x.Good) : (x.grantTaken b).Good := by
  have haside : ({ x with fromGovernor := x.fromGovernor.tail } : Port).Good := h.aside
  unfold Port.grantTaken
  dsimp only
  split <;> rename_i hst
  · have hfit := (haside.fit (by unfold Port.present; rw [hst]; rfl)).entered .powering b
    obtain ⟨hlane, -⟩ := h.railDown (by rw [hst]; rfl)
    rw [entered_of_ne (x := { x with fromGovernor := x.fromGovernor.tail }) b
      (show x.state ≠ .powering by rw [hst]; decide)] at hfit ⊢
    exact good_of_timed rfl
      ⟨hfit.plugged, hfit.record, hfit.cut, hfit.boots, hfit.trips, hfit.recovery, hfit.silence⟩
      (by simp [hlane, PState.laneOpen]) rfl ⟨rfl, rfl, rfl⟩ ⟨rfl, rfl⟩
      (by change x.lane.phrase? = none; rw [hlane]; rfl)
  · exact haside.aside

/-- STOP_LIMIT (R28). -/
theorem Good.stopLimited (h : x.Good) (hst : x.state = .stopping) :
    ((x.railCut .stopLimit).wentOff b).Good :=
  railCut_wentOff_good b _ h (present_of_laneOpen (by rw [hst]; rfl)) (by rw [hst]; decide)

/-- A beat boundary (R41, R42). -/
theorem Good.boundaryTaken (h : x.Good) (p : PortNo) (beat : Word) (rest : List Word) :
    (x.boundaryTaken p beat rest b).Good := by
  have haside : ({ x with boundaries := rest } : Port).Good := h.aside
  unfold Port.boundaryTaken
  dsimp only
  split
  · exact haside
  · rename_i c hc
    split_ifs with hdue hsilence
    · obtain ⟨ha, -⟩ := hdue
      refine Good.granted ⟨h.lane, h.pulse, h.untimed, h.timed, fun hn => absurd (ha.symm.trans hn) (by decide),
        h.plugged, h.record, h.resting, h.cut, h.reason, h.attempts, h.recovery, ?_, h.tuning, h.phrase⟩
      change x.silence + 1 ≤ x.classRecord.elim 0 (·.lapseLimit.toNat)
      rw [hc]
      exact hsilence
    · exact haside.lapsed hdue.1 b
    · exact haside

/-- The wake pulse ends (R21). -/
theorem Good.wakeEnded (h : x.Good) : ({ x with wakePulse := none } : Port).Good :=
  ⟨h.lane, fun _ => rfl, h.untimed, h.timed, h.still, h.plugged, h.record, h.resting, h.cut, h.reason, h.attempts,
    h.recovery, h.silence, h.tuning, h.phrase⟩

/-- The tick counts down deadlines and leaves none where there was none (R38). -/
theorem Good.countDown (h : x.Good) : x.countDown.Good := by
  have hphrase : x.lane.countDown.phrase? = x.lane.phrase? := by cases x.lane <;> rfl
  have hlast : x.lane.countDown.lastAttempt = x.lane.lastAttempt := by cases x.lane <;> rfl
  have hclosed : x.lane.countDown = .closed ↔ x.lane = .closed := by cases x.lane <;> simp [Lane.countDown]
  refine ⟨hclosed.trans h.lane, fun hon => ?_, fun hm => ?_, fun ht => ?_, h.still, h.plugged, h.record, h.resting,
    h.cut, h.reason, h.attempts, h.recovery, h.silence, ?_, fun ph hph => ?_⟩
  · change Machine.countDown x.wakePulse = none
    rw [h.pulse hon]; rfl
  · change Machine.countDown x.timer = none
    rw [h.untimed hm]; rfl
  · have := h.timed ht
    change (Machine.countDown x.timer).isSome = true
    simpa [Machine.countDown] using this
  · have hcarries : x.lane.countDown.carries .set = x.lane.carries .set := by
      unfold Lane.carries; rw [hphrase]
    change if x.state = .tuning then
      if x.restart then x.lane.countDown.carries .set = true else x.cursor < x.profile.length
      else x.cursor = 0 ∧ x.restart = false
    rw [hcarries]
    exact h.tuning
  · change x.lane.countDown.phrase? = some ph at hph
    rw [hphrase] at hph
    obtain ⟨h₁, h₂, h₃, h₄⟩ := h.phrase ph hph
    exact ⟨h₁, h₂, by rw [show x.countDown.lane = x.lane.countDown from rfl, hlast]; exact h₃, h₄⟩

/-! ## The lane -/

/-- Another lane state of the same phrase, or of none, at an open lane. -/
theorem Good.relaned (h : x.Good) {l : Lane} (hopen : x.state.laneOpen = true) (hl : l ≠ .closed)
    (hcursor : x.restart = true → l.carries .set = true)
    (hphrase : ∀ ph, l.phrase? = some ph → ph.name.sentIn x.state = true ∧ 1 ≤ ph.attempt ∧
      ph.attempt ≤ l.lastAttempt ∧ ph.next < ph.symbols.length) : ({ x with lane := l } : Port).Good := by
  refine ⟨by simp [hl, hopen], h.pulse, h.untimed, h.timed, h.still, h.plugged, h.record, h.resting, h.cut, h.reason,
    h.attempts, h.recovery, h.silence, ?_, hphrase⟩
  have hc := h.tuning
  split at hc <;> rename_i hst
  · rw [if_pos hst]
    cases hr : x.restart
    · rw [hr] at hc
      simpa using hc
    · simpa using hcursor hr
  · rw [if_neg hst]; exact hc

end Port

end Sys2Proof.Machine
end

section
/-! The messages between a port, the governor and the reader: what each operation of a port keeps of the agreement
with the Grant Queue and the Reader Queue (R95 to R98, R69, R74 to R76). -/

set_option Elab.async false

namespace Sys2Proof.Machine

/-! ## Claims and slots -/

/-- What a state asks of the governor: a claim in QUEUED, a slot while warming. -/
inductive Holding
  | nothing
  | claim
  | slot
deriving DecidableEq

/-- What a port in this state asks of the governor. -/
def PState.holding : PState → Holding
  | .queued => .claim
  | .powering | .booting => .slot
  | _ => .nothing

/-- Releases and returned grants among the messages. -/
def returnsIn (m : List GovMsg) : Nat := m.count .release + m.count .returnedGrant

/-- The agreement of a port with the governor, by the messages on their way, and what the port's state asks. -/
structure GrantFit (queued holder : Bool) (m : List GovMsg) (f : List PortMsg) (k : Holding) : Prop where
  one : (queued && holder) = false
  slots : f.count .grant + (if k = .slot then 1 else 0) + returnsIn m = holder.toNat
  claims : (m.foldl GovMsg.taken (queued, holder)).1 = (decide (k = .claim) && f.count .grant == 0)

theorem grantPortSound_iff (s : State) (p : PortNo) :
    s.grantPortSound p = true ↔
      GrantFit (decide (p ∈ s.governor.queue)) (s.governor.holders.get p) (s.port p).toGovernor
        (s.port p).fromGovernor (s.port p).state.holding := by
  have hwarm : (s.port p).state.isWarming.toNat = if (s.port p).state.holding = .slot then 1 else 0 := by
    cases (s.port p).state <;> rfl
  have hclaim : ((s.port p).state == PState.queued) = decide ((s.port p).state.holding = .claim) := by
    cases (s.port p).state <;> rfl
  unfold State.grantPortSound
  dsimp only
  rw [hwarm, hclaim]
  simp only [Bool.and_eq_true, beq_iff_eq, Bool.not_eq_true']
  exact ⟨fun ⟨⟨h₁, h₂⟩, h₃⟩ => ⟨h₁, h₂, h₃⟩, fun ⟨h₁, h₂, h₃⟩ => ⟨⟨h₁, h₂⟩, h₃⟩⟩

theorem returnsIn_append (m l : List GovMsg) : returnsIn (m ++ l) = returnsIn m + returnsIn l := by
  simp only [returnsIn, List.count_append]; omega

/-- After its messages a port holds its slot exactly if none of them gave it back. -/
theorem foldl_taken_snd (m : List GovMsg) (q h : Bool) :
    (m.foldl GovMsg.taken (q, h)).2 = (h && returnsIn m == 0) := by
  induction m generalizing q h with
  | nil => simp [returnsIn]
  | cons a m ih =>
    rw [List.foldl_cons, show GovMsg.taken (q, h) a = ((GovMsg.taken (q, h) a).1, (GovMsg.taken (q, h) a).2) from rfl, ih]
    cases a <;> simp [GovMsg.taken, returnsIn]

namespace GrantFit

variable {q h : Bool} {m : List GovMsg} {f : List PortMsg} {k : Holding}

/-- The claims after one message more. -/
theorem foldl_concat (a : GovMsg) :
    (m ++ [a]).foldl GovMsg.taken (q, h) = GovMsg.taken (m.foldl GovMsg.taken (q, h)) a := by simp

theorem withdrawn (hf : GrantFit q h m f .claim) : GrantFit q h (m ++ [.withdrawal]) f .nothing where
  one := hf.one
  slots := by
    have := hf.slots
    rw [returnsIn_append]
    simpa [returnsIn] using this
  claims := by rw [foldl_concat]; rfl

theorem released (hf : GrantFit q h m f .slot) : GrantFit q h (m ++ [.release]) f .nothing where
  one := hf.one
  slots := by
    have := hf.slots
    rw [returnsIn_append]
    simp [returnsIn] at this ⊢
    omega
  claims := by
    rw [foldl_concat]
    exact hf.claims

theorem claimed (hf : GrantFit q h m f .nothing) : GrantFit q h (m ++ [.claim]) f .claim where
  one := hf.one
  slots := by
    have := hf.slots
    rw [returnsIn_append]
    simpa [returnsIn] using this
  claims := by
    have hslots := hf.slots
    have hclaims := hf.claims
    have hsnd := foldl_taken_snd m q h
    rw [foldl_concat]
    simp only [GovMsg.taken]
    rw [hclaims, hsnd]
    cases h <;> simp at hslots ⊢
    · omega
    · rw [Bool.eq_iff_iff]; simp; omega

theorem powered (hf : GrantFit q h m (.grant :: f) .claim) : GrantFit q h m f .slot where
  one := hf.one
  slots := by
    have := hf.slots
    simp at this ⊢
    omega
  claims := by rw [hf.claims]; simp

theorem returned (hk : k ≠ .claim) (hf : GrantFit q h m (.grant :: f) k) :
    GrantFit q h (m ++ [.returnedGrant]) f k where
  one := hf.one
  slots := by
    have := hf.slots
    rw [returnsIn_append]
    simp [returnsIn] at this ⊢
    omega
  claims := by
    rw [foldl_concat]
    simp only [GovMsg.taken]
    rw [hf.claims]
    simp [hk]

theorem tripCut (hf : GrantFit q h m (.tripCut :: f) k) : GrantFit q h m f k where
  one := hf.one
  slots := by simpa using hf.slots
  claims := by simpa using hf.claims

end GrantFit

/-! ## The reader's side -/

/-- EMPTY, IDENTIFYING, or a state with the identification behind it. -/
inductive PlugKind
  | gone
  | identifying
  | known
deriving DecidableEq

/-- How far the port's plug is known in this state. -/
def PState.plugKind : PState → PlugKind
  | .empty => .gone
  | .identifying => .identifying
  | _ => .known

/-- What is left of an identification, by how far the plug is known. -/
def PlugKind.fits (queued : Bool) (m : List ReaderMsg) (results : Nat) : PlugKind → Prop
  | .identifying => if .join ∈ m then results = 0 else .withdrawal ∉ m ∧ (queued = true ∨ results = 1)
  | .gone => .join ∉ m
  | .known => .join ∉ m ∧ .withdrawal ∉ m ∧ results = 0

/-- The agreement of a port with the Reader Queue, by the messages and results on their way. -/
structure ReaderFit (queued serves : Bool) (m : List ReaderMsg) (results : Nat) (k : PlugKind) : Prop where
  mail : m = (if .withdrawal ∈ m then [.withdrawal] else []) ++ (if .join ∈ m then [.join] else [])
  place : queued = true → if .withdrawal ∈ m then serves = true else k = .identifying ∧ .join ∉ m
  one : results + queued.toNat ≤ 1
  kind : k.fits queued m results

/-- The last clause of the agreement, by the port's state. -/
theorem plugKind_fits_iff (queued : Bool) (m : List ReaderMsg) (results : Nat) (st : PState) :
    (match st with
      | .identifying =>
        if decide (ReaderMsg.join ∈ m) then results == 0
        else !decide (ReaderMsg.withdrawal ∈ m) && (queued || results == 1)
      | .empty => !decide (ReaderMsg.join ∈ m)
      | _ => !decide (ReaderMsg.join ∈ m) && !decide (ReaderMsg.withdrawal ∈ m) && results == 0) = true ↔
      st.plugKind.fits queued m results := by
  cases st
  case identifying =>
    simp only [PState.plugKind, PlugKind.fits, decide_eq_true_eq]
    split <;> simp
  all_goals simp [PState.plugKind, PlugKind.fits, and_assoc]

theorem readerPortSound_iff (s : State) (p : PortNo) :
    s.readerPortSound p = true ↔
      ReaderFit (decide (p ∈ s.reader.queue)) (s.reader.state.serves p) (s.port p).toReader
        (s.port p).idResults.length (s.port p).state.plugKind := by
  have hw : (s.port p).toReader.contains .withdrawal = decide (ReaderMsg.withdrawal ∈ (s.port p).toReader) := by
    simp
  have hj : (s.port p).toReader.contains .join = decide (ReaderMsg.join ∈ (s.port p).toReader) := by simp
  have hid : ((s.port p).state == PState.identifying) = decide ((s.port p).state.plugKind = .identifying) := by
    cases (s.port p).state <;> rfl
  have hplace : ∀ q w j i v : Bool, ((!q || if w = true then v else i && !j) = true) ↔
      (q = true → if w = true then v = true else i = true ∧ j = false) := by decide
  unfold State.readerPortSound Port.joining
  dsimp only
  rw [hw, hj, hid, Bool.and_eq_true, Bool.and_eq_true, Bool.and_eq_true, hplace, beq_iff_eq]
  have hkind := plugKind_fits_iff (decide (p ∈ s.reader.queue)) (s.port p).toReader (s.port p).idResults.length
    (s.port p).state
  constructor
  · rintro ⟨⟨⟨hmail, hpl⟩, hone⟩, hk⟩
    exact ⟨by simpa only [decide_eq_true_eq] using hmail, fun hq => by simpa only [decide_eq_true_eq, decide_eq_false_iff_not] using hpl hq,
      of_decide_eq_true hone, hkind.1 hk⟩
  · rintro ⟨hmail, hpl, hone, hk⟩
    exact ⟨⟨⟨by simpa only [decide_eq_true_eq] using hmail, fun hq => by simpa only [decide_eq_true_eq, decide_eq_false_iff_not] using hpl hq⟩,
      decide_eq_true hone⟩, hkind.2 hk⟩

end Sys2Proof.Machine
end

section
/-! What the operations of a port hand to the governor and the reader: nothing, or the message that what the
port's state asks of them calls for (R3, R95 to R98). -/

set_option Elab.async false

namespace Sys2Proof.Machine

/-- The state asks nothing of the governor, and the identification is behind the port. -/
def PState.unbound (st : PState) : Bool := st.holding == .nothing && st.plugKind == .known

namespace Port

variable {x y z : Port} (b : Word)

/-! ## Operations that hand nothing on -/

/-- The messages on their way from and to a port. -/
def mail (x : Port) : List GovMsg × List PortMsg × List ReaderMsg × List IdResult :=
  (x.toGovernor, x.fromGovernor, x.toReader, x.idResults)

@[simp] theorem entered_mail (st : PState) : (x.entered st b).mail = x.mail := by
  unfold entered; split <;> rfl

@[simp] theorem railCut_mail (why : EndReason) : (x.railCut why).mail = x.mail := by
  unfold railCut; split <;> rfl

@[simp] theorem claimRaised_mail : x.claimRaised.mail = x.mail := rfl

@[simp] theorem countsCleared_mail : x.countsCleared.mail = x.mail := rfl

@[simp] theorem reachedTarget_mail : x.reachedTarget.mail = x.mail := rfl

@[simp] theorem reachedIfGoal_mail : x.reachedIfGoal.mail = x.mail := by unfold reachedIfGoal; split <;> rfl

@[simp] theorem granted_mail : x.granted.mail = x.mail := by
  unfold granted
  split_ifs
  · rfl
  · split <;> rfl
  · rfl
  · rfl

@[simp] theorem readied_mail : (x.readied b).mail = x.mail := by simp [readied]

@[simp] theorem pausedEntered_mail : (x.pausedEntered b).mail = x.mail := by simp [pausedEntered]

@[simp] theorem tuned_mail : (x.tuned b).mail = x.mail := by rw [tuned, readied_mail]; rfl

@[simp] theorem profileToSend_mail : (x.profileToSend b).mail = x.mail := entered_mail b .tuning

@[simp] theorem tuningEntered_mail : (x.tuningEntered b).mail = x.mail := by unfold tuningEntered; split <;> simp

@[simp] theorem pausingEntered_mail : (x.pausingEntered b).mail = x.mail := entered_mail b .pausing

@[simp] theorem resumingEntered_mail : (x.resumingEntered b).mail = x.mail := entered_mail b .resuming

@[simp] theorem stoppingEntered_mail : (x.stoppingEntered b).mail = x.mail := entered_mail b .stopping

@[simp] theorem setEnded_mail : (x.setEnded b).mail = x.mail := by
  unfold setEnded
  split_ifs
  · rw [tuned_mail]; rfl
  · rfl
  · rfl
  · rw [tuned_mail]

@[simp] theorem keepPassed_mail : (x.keepPassed b).mail = x.mail := by unfold keepPassed; split <;> simp

@[simp] theorem phraseOver_mail (ok : Bool) : (x.phraseOver ok).mail = x.mail := by
  unfold phraseOver exchanged laneFreed; split_ifs <;> rfl

@[simp] theorem endOfReception_mail : x.endOfReception.mail = x.mail := phraseOver_mail true

@[simp] theorem calledAgain_mail (old : Target) : (x.calledAgain old).mail = x.mail := by
  unfold calledAgain; split <;> simp

/-! ## The states they leave -/

@[simp] theorem claimRaised_state : x.claimRaised.state = x.state := rfl

@[simp] theorem reachedIfGoal_state : x.reachedIfGoal.state = x.state := by unfold reachedIfGoal; split <;> rfl

@[simp] theorem granted_state : x.granted.state = x.state := by
  unfold granted
  split_ifs
  · rfl
  · split <;> rfl
  · rfl
  · rfl

@[simp] theorem calledAgain_state (old : Target) : (x.calledAgain old).state = x.state := by
  unfold calledAgain; split <;> simp

@[simp] theorem readied_state : (x.readied b).state = .ready := by simp [readied]

@[simp] theorem pausedEntered_state : (x.pausedEntered b).state = .paused := by simp [pausedEntered]

@[simp] theorem tuned_state : (x.tuned b).state = .ready := by simp [tuned]

@[simp] theorem pausingEntered_state : (x.pausingEntered b).state = .pausing := by simp [pausingEntered]

@[simp] theorem resumingEntered_state : (x.resumingEntered b).state = .resuming := by simp [resumingEntered]

@[simp] theorem stoppingEntered_state : (x.stoppingEntered b).state = .stopping := by simp [stoppingEntered]

@[simp] theorem faultEntered_state (r : FaultReason) : (x.faultEntered r b).state = .faulted r := by
  simp [faultEntered]

theorem unbound_of_alive {st : PState} (h : st.isAlive = true) : st.unbound = true := by
  cases st <;> simp_all [PState.isAlive] <;> rfl

theorem tuningEntered_unbound : (x.tuningEntered b).state.unbound = true := by
  unfold tuningEntered
  split
  · rw [tuned_state]; rfl
  · rw [claimRaised_state, profileToSend]; simp; rfl

/-! ## What is handed on -/

/-- From `x` to `y`: agreement with the governor is kept, with `k` asked of it before and `k'` after; and nothing
changes between port and reader. -/
structure Passes (k k' : Holding) (x y : Port) : Prop where
  grant : ∀ q h, GrantFit q h x.toGovernor x.fromGovernor k → GrantFit q h y.toGovernor y.fromGovernor k'
  toReader : y.toReader = x.toReader
  results : y.idResults = x.idResults

theorem Passes.of_mail {k : Holding} (h : y.mail = x.mail) : Passes k k x y := by
  simp only [mail, Prod.mk.injEq] at h
  obtain ⟨hto, hfrom, hreader, hresults⟩ := h
  exact ⟨fun q h hg => by rw [hto, hfrom]; exact hg, hreader, hresults⟩

theorem Passes.trans {k k' k'' : Holding} (h : Passes k k' x y) (g : Passes k' k'' y z) : Passes k k'' x z :=
  ⟨fun q o hg => g.grant q o (h.grant q o hg), g.toReader.trans h.toReader, g.results.trans h.results⟩

/-- A later change that hands nothing on. -/
theorem Passes.mail {k k' : Holding} (h : Passes k k' x y) (g : z.mail = y.mail) : Passes k k' x z :=
  h.trans (.of_mail g)

theorem gaveUp_passes : Passes x.state.holding .nothing x x.gaveUp := by
  unfold gaveUp
  split_ifs with hq hw
  · rw [hq]
    exact ⟨fun _ _ hg => hg.withdrawn, rfl, rfl⟩
  · rw [show x.state.holding = .slot by cases hs : x.state <;> simp_all [PState.isWarming, PState.holding]]
    exact ⟨fun _ _ hg => hg.released, rfl, rfl⟩
  · rw [show x.state.holding = .nothing by cases hs : x.state <;> simp_all [PState.isWarming, PState.holding]]
    exact .of_mail rfl

theorem queuedUp_passes : Passes .nothing .claim x (x.queuedUp b) :=
  (Passes.of_mail (entered_mail b .queued)).trans ⟨fun _ _ hg => hg.claimed, rfl, rfl⟩

@[simp] theorem queuedUp_state : (x.queuedUp b).state = .queued := by simp [queuedUp, told]

theorem wentOff_passes : Passes .nothing (x.wentOff b).state.holding x (x.wentOff b) := by
  have hoff : Passes .nothing .nothing x (x.countsCleared.entered .off b) := .of_mail (by simp)
  unfold wentOff
  split
  · rw [show (x.countsCleared.entered .off b).reachedTarget.state = .off by simp [reachedTarget]]
    exact hoff.mail rfl
  · rw [queuedUp_state]
    exact hoff.trans (queuedUp_passes b)

theorem wentOff_known : (x.wentOff b).state.plugKind = .known := by
  unfold wentOff
  split
  · simp [reachedTarget]; rfl
  · simp; rfl

theorem faultEntered_passes (r : FaultReason) : Passes x.state.holding .nothing x (x.faultEntered r b) := by
  have hcut : Passes x.state.holding x.state.holding x (x.railCut (.fault r)) := .of_mail (railCut_mail _)
  have hgave : Passes x.state.holding .nothing (x.railCut (.fault r)) (x.railCut (.fault r)).gaveUp := by
    have := gaveUp_passes (x := x.railCut (.fault r))
    rwa [railCut_state] at this
  exact (hcut.trans hgave).mail (entered_mail b (.faulted r))

/-! ## Ports that keep their place with governor and reader -/

/-- From `x` to `y` the agreement with the governor is kept, and nothing changes between port and reader. -/
structure Moves (x y : Port) : Prop where
  passes : Passes x.state.holding y.state.holding x y
  kind : y.state.plugKind = x.state.plugKind

theorem Moves.trans (h : Moves x y) (g : Moves y z) : Moves x z :=
  ⟨h.passes.trans g.passes, g.kind.trans h.kind⟩

/-- Nothing handed on in a state that asks for the same. -/
theorem Moves.of_mail (hm : y.mail = x.mail) (hst : y.state = x.state) : Moves x y :=
  ⟨by rw [hst]; exact .of_mail hm, by rw [hst]⟩

theorem holding_of_unbound {st : PState} (h : st.unbound = true) : st.holding = .nothing ∧ st.plugKind = .known := by
  simpa [PState.unbound] using h

/-- Nothing handed on between two states that ask for nothing. -/
theorem Moves.of_unbound (hx : x.state.unbound = true) (hy : y.state.unbound = true) (hm : y.mail = x.mail) :
    Moves x y := by
  obtain ⟨hxh, hxk⟩ := holding_of_unbound hx
  obtain ⟨hyh, hyk⟩ := holding_of_unbound hy
  exact ⟨by rw [hxh, hyh]; exact .of_mail hm, by rw [hyk, hxk]⟩

/-- OFF entered after nothing more is asked of the governor. -/
theorem Moves.wentOff (hx : x.state.plugKind = .known) (h : Passes x.state.holding .nothing x y) :
    Moves x (y.wentOff b) :=
  ⟨h.trans (wentOff_passes b), by rw [wentOff_known, hx]⟩

/-- QUEUED entered after nothing more is asked of the governor. -/
theorem Moves.queuedUp (hx : x.state.plugKind = .known) (h : Passes x.state.holding .nothing x y) :
    Moves x (y.queuedUp b) :=
  ⟨by rw [queuedUp_state]; exact h.trans (queuedUp_passes b), by rw [queuedUp_state, hx]; rfl⟩

theorem moves_faultEntered (r : FaultReason) (hx : x.state.plugKind = .known) : Moves x (x.faultEntered r b) :=
  ⟨by rw [faultEntered_state]; exact faultEntered_passes b r, by rw [faultEntered_state, hx]; rfl⟩

/-- The rail cut and what was asked of the governor given up. -/
theorem railCut_gaveUp_passes (why : EndReason) : Passes x.state.holding .nothing x (x.railCut why).gaveUp := by
  have := gaveUp_passes (x := x.railCut why)
  rw [railCut_state] at this
  exact (Passes.of_mail (railCut_mail why)).trans this

/-- The rail cut where nothing is asked of the governor. -/
theorem railCut_passes (why : EndReason) (hx : x.state.unbound = true) :
    Passes x.state.holding .nothing x (x.railCut why) := by
  rw [(holding_of_unbound hx).1]
  exact .of_mail (railCut_mail why)

theorem known_of_present (h : x.present = true) : x.state.plugKind = .known := by
  unfold present at h; cases hs : x.state <;> simp_all [PState.isAbsent, PState.isFaulted, PState.plugKind]

theorem known_of_laneOpen (h : x.state.laneOpen = true) : x.state.plugKind = .known :=
  known_of_present (present_of_laneOpen h)

end Port

end Sys2Proof.Machine
end

section
/-! Every event of a port keeps its place with governor and reader, unless it is one of the reader's. -/

set_option Elab.async false

namespace Sys2Proof.Machine

namespace Port

variable {x y : Port} (b : Word)

/-! ## Phrases -/

theorem Moves.granted (h : Moves x y) : Moves x y.granted := h.trans (.of_mail granted_mail granted_state)

theorem stepEnded_moves {n : PhraseName} (ok : Bool) (ha : x.state.isAlive = true) : Moves x (x.stepEnded n ok b) := by
  have hx := unbound_of_alive ha
  have hfault : Moves x (x.faultEntered .link b) := moves_faultEntered b .link (holding_of_unbound hx).2
  have hset : (x.setEnded b).state.unbound = true := by
    unfold setEnded
    split_ifs
    · rw [tuned_state]; rfl
    · exact hx
    · exact hx
    · rw [tuned_state]; rfl
  cases n with
  | keep => exact .of_mail rfl rfl
  | halt => exact .of_unbound hx (by rw [stepEnded, stoppingEntered_state]; rfl) (stoppingEntered_mail b)
  | set =>
    cases ok
    · exact hfault
    · exact .of_unbound hx hset (setEnded_mail b)
  | hold =>
    cases ok
    · exact hfault
    · exact .of_unbound hx (by rw [stepEnded, pausingEntered_state]; rfl) (pausingEntered_mail b)
  | release =>
    cases ok
    · exact hfault
    · exact .of_unbound hx (by rw [stepEnded, resumingEntered_state]; rfl) (resumingEntered_mail b)

theorem keepPassed_moves : Moves x (x.keepPassed b) := by
  unfold keepPassed
  split
  · rename_i hst
    exact .of_unbound (by rw [hst.1]; rfl) (tuningEntered_unbound b) (tuningEntered_mail b)
  · exact .of_mail rfl rfl

theorem alive_of_sentIn {n : PhraseName} {st : PState} (h : n.sentIn st = true) : st.isAlive = true := by
  cases n <;> cases st <;> simp_all [PhraseName.sentIn, PState.isAlive]

theorem phraseEnded_moves {ph : Phrase} {d : Nat} (h : x.Good) (hl : x.lane = .sending ph d) (ok : Bool) :
    Moves x (x.phraseEnded ph ok b) := by
  obtain ⟨hs, -⟩ := h.phrase ph (by rw [hl]; rfl)
  obtain ⟨-, hstate, -⟩ := phraseOver_kept ok x
  have hover : Moves x (x.phraseOver ok) := .of_mail (phraseOver_mail ok) hstate
  have hresult : x.phraseEnded ph ok b =
      (if ph.name = .keep then (x.phraseOver ok).keepPassed b
        else (x.phraseOver ok).stepEnded ph.name ok b).granted := rfl
  rw [hresult]
  split
  · exact (hover.trans (keepPassed_moves b)).granted
  · exact (hover.trans (stepEnded_moves b ok (by rw [hstate]; exact alive_of_sentIn hs))).granted

/-! ## Phrases of the camera -/

theorem helloTaken_moves (hx : x.state.plugKind = .known) (c f : Byte) : Moves x (x.helloTaken c f b) := by
  have hset : Moves x { x with firmware := some f } := .of_mail rfl rfl
  unfold helloTaken
  dsimp only
  split_ifs with hclass hboot ha
  · exact hset.trans (moves_faultEntered b .mismatch hx)
  · have hrelease : Passes x.state.holding .nothing x
        { ({ x with firmware := some f } : Port).told .release with silence := 0, bootAttempts := 0, tripCount := 0 } := by
      rw [hboot]
      exact ⟨fun _ _ hg => hg.released, rfl, rfl⟩
    obtain ⟨hnothing, hknown⟩ := holding_of_unbound
      (tuningEntered_unbound b (x := { ({ x with firmware := some f } : Port).told .release with
        silence := 0, bootAttempts := 0, tripCount := 0 }))
    exact ⟨by rw [hnothing]; exact hrelease.mail (tuningEntered_mail b), by rw [hknown, hx]⟩
  · exact .of_unbound (unbound_of_alive ha) (tuningEntered_unbound b) (by rw [tuningEntered_mail]; rfl)
  · exact hset

theorem settledTaken_moves : Moves x (x.settledTaken b) := by
  unfold settledTaken
  split <;> rename_i hst
  · exact .of_unbound (by rw [hst]; rfl) (by rw [pausedEntered_state]; rfl) (pausedEntered_mail b)
  · exact .of_mail rfl rfl

theorem awakeTaken_moves : Moves x (x.awakeTaken b) := by
  unfold awakeTaken
  split_ifs with hst hstale
  · exact .of_unbound (by rw [hst]; rfl) (tuningEntered_unbound b) (tuningEntered_mail b)
  · exact .of_unbound (by rw [hst]; rfl) (by rw [readied_state]; rfl) (readied_mail b)
  · exact .of_mail rfl rfl

theorem partingTaken_moves (stamp : Word) : Moves x (x.partingTaken stamp b) := by
  unfold partingTaken
  split_ifs with ha hst
  · have hx := unbound_of_alive ha
    exact .wentOff b (holding_of_unbound hx).2 ((railCut_passes .parted hx).mail rfl)
  · exact .wentOff b (by rw [hst]; rfl) (railCut_passes .stopped (by rw [hst]; rfl))
  · exact .of_mail rfl rfl

/-! ## Lapses and targets -/

theorem lapsed_moves (ha : x.state.isAlive = true) : Moves x (x.lapsed b) := by
  have hx := unbound_of_alive ha
  have hknown := (holding_of_unbound hx).2
  have hstale : Moves x { x with stale := true } := .of_mail rfl rfl
  have hcut : Passes x.state.holding .nothing x (({ x with stale := true } : Port).railCut .lapsed) :=
    hstale.passes.trans (railCut_passes (x := { x with stale := true }) .lapsed hx)
  unfold lapsed
  dsimp only
  split_ifs
  · exact .wentOff b hknown hcut
  · exact .queuedUp b hknown (hcut.mail rfl)
  · exact hstale.trans (moves_faultEntered b .lapse hknown)

theorem cutOff_moves (hx : x.state.plugKind = .known) : Moves x (x.cutOff b) :=
  .wentOff b hx (gaveUp_passes.mail (railCut_mail .cut))

theorem Moves.calledAgain (h : Moves x y) (old : Target) : Moves x (y.calledAgain old) :=
  h.trans (.of_mail (calledAgain_mail old) (calledAgain_state old))

theorem targetActed_moves (old : Target) : Moves x (x.targetActed old b) := by
  have hsame : Moves x x := .of_mail rfl rfl
  unfold targetActed
  cases hs : x.state <;> simp only
  case off =>
    split
    · exact hsame
    · exact .queuedUp b (by rw [hs]; rfl) (by rw [hs]; exact .of_mail rfl)
  case queued =>
    split
    · refine .wentOff b (by rw [hs]; rfl) ?_
      rw [hs]
      exact ⟨fun _ _ hg => hg.withdrawn, rfl, rfl⟩
    · exact hsame
  case powering | booting =>
    split
    · exact .wentOff b (by rw [hs]; rfl) (railCut_gaveUp_passes .cancelled)
    · exact hsame
  case tuning | ready | paused => exact hsame.calledAgain old
  case pausing => exact Moves.calledAgain (x := x) (y := x.waitedFor .paused Config.holdLimitMs) (.of_mail rfl rfl) old
  case resuming => exact Moves.calledAgain (x := x) (y := x.waitedFor .awake x.resumeMs) (.of_mail rfl rfl) old
  all_goals exact hsame

theorem targetTaken_moves {t : TargetSet} (ht : declines x t = none) (ref : Option EntryNo) (stamp : Word) :
    Moves x (x.targetTaken t ref stamp b) := by
  have hstored : Moves x ((x.storedFor t stamp).marked false) := .of_mail rfl rfl
  have hout : Moves x ((x.storedFor t stamp).carriedOut t x.target b) := by
    rw [carriedOut_marked]
    split
    · exact hstored.trans (cutOff_moves b (known_of_present (x := x) (present_of_taken ht)))
    · exact hstored.trans (targetActed_moves b _)
  unfold targetTaken
  dsimp only
  split
  · exact hout.trans (.of_mail rfl rfl)
  · exact hout

/-! ## Profiles and deadlines -/

theorem profileReplaced_moves (l : Profile) : Moves x (x.profileReplaced l b) := by
  unfold profileReplaced
  dsimp only
  split
  · rename_i hst
    have hx : x.state.unbound = true := by rw [hst]; rfl
    split
    · exact .of_mail rfl rfl
    · refine Moves.granted ?_
      split
      · exact .of_unbound hx (by rw [tuned_state]; rfl) (by rw [tuned_mail]; rfl)
      · exact .of_mail rfl rfl
  · rename_i hst
    split
    · exact .of_mail rfl rfl
    · exact Moves.granted
        (.of_unbound (by rw [hst]; rfl) (tuningEntered_unbound b) (by rw [tuningEntered_mail]; rfl))
  all_goals exact .of_mail rfl rfl

theorem booted_moves (hst : x.state = .powering) : Moves x (x.booted b) := by
  refine Moves.granted ?_
  refine ⟨?_, ?_⟩
  · rw [hst]
    simp only [entered_state]
    exact .of_mail (entered_mail b .booting)
  · rw [hst]
    simp only [entered_state]
    rfl

theorem requeued_moves {why : EndReason} (hw : x.state.isWarming = true) :
    Moves x (((x.railCut why).gaveUp).queuedUp b) :=
  .queuedUp b (known_of_present (present_of_warming hw)) (railCut_gaveUp_passes why)

theorem bootLimited_moves (hst : x.state = .booting) : Moves x (x.bootLimited b) := by
  have hcount : Moves x { x with bootAttempts := x.bootAttempts + 1 } := .of_mail rfl rfl
  have hw : x.state.isWarming = true := by rw [hst]; rfl
  unfold bootLimited
  dsimp only
  split
  · exact hcount.trans (requeued_moves b hw)
  · exact hcount.trans (moves_faultEntered b .boot (known_of_present (x := x) (present_of_warming hw)))

theorem boundaryTaken_moves (p : PortNo) (beat : Word) (rest : List Word) :
    Moves x (x.boundaryTaken p beat rest b) := by
  have hrest : Moves x { x with boundaries := rest } := .of_mail rfl rfl
  unfold boundaryTaken
  dsimp only
  split
  · exact hrest
  · split_ifs with hdue hsilence
    · exact Moves.granted (.of_mail rfl rfl)
    · exact hrest.trans (lapsed_moves b hdue.1)
    · exact hrest

/-! ## The governor's messages taken -/

/-- A grant taken (R20, R3). -/
theorem grantTaken_moves {rest : List PortMsg} (hx : x.fromGovernor = .grant :: rest) : Moves x (x.grantTaken b) := by
  unfold grantTaken
  dsimp only
  split <;> rename_i hst
  · refine ⟨⟨fun q h hg => ?_, ?_, ?_⟩, ?_⟩
    · rw [hst, hx] at hg
      simp only [entered_state, hx, List.tail_cons]
      exact (Passes.of_mail (x := { x with fromGovernor := rest }) (entered_mail b .powering)).grant q h hg.powered
    · exact (Passes.of_mail (k := .nothing) (x := { x with fromGovernor := x.fromGovernor.tail }) (entered_mail b .powering)).toReader
    · exact (Passes.of_mail (k := .nothing) (x := { x with fromGovernor := x.fromGovernor.tail }) (entered_mail b .powering)).results
    · rw [hst]
      simp only [entered_state]
      rfl
  · refine ⟨⟨fun q h hg => ?_, rfl, rfl⟩, rfl⟩
    rw [hx] at hg
    have hk : x.state.holding ≠ .claim := by cases hs : x.state <;> simp_all [PState.holding]
    have hg := hg.returned hk
    simpa [told, hx] using hg

/-- A trip cut taken (R34). -/
theorem tripCutTaken_moves {rest : List PortMsg} (hx : x.fromGovernor = .tripCut :: rest) :
    Moves x (x.tripCutTaken b) := by
  have htaken : Moves x { x with fromGovernor := x.fromGovernor.tail } := by
    refine ⟨⟨fun q h hg => ?_, rfl, rfl⟩, rfl⟩
    rw [hx] at hg
    simpa [hx] using hg.tripCut
  have hcounted : Moves x { x with fromGovernor := x.fromGovernor.tail, tripCount := x.tripCount + 1 } :=
    htaken.trans (.of_mail rfl rfl)
  unfold tripCutTaken
  dsimp only
  split_ifs with hw hc
  · exact hcounted.trans (requeued_moves b hw)
  · exact hcounted.trans (moves_faultEntered b .supply (known_of_present (x := x) (present_of_warming hw)))
  · exact htaken

end Port

end Sys2Proof.Machine
end

section
/-! From a port to the part: what keeps the invariants of ports, rig and queues (R69, R96, R98), and the events of a
port that keep them. -/

set_option Elab.async false

namespace Sys2Proof.Machine

variable {p : PortNo} {s t u : State}

/-! ## The invariant of the two queues -/

/-- Port `p` agrees with the Reader Queue. -/
def State.readerFits (s : State) (p : PortNo) : Prop :=
  ReaderFit (decide (p ∈ s.reader.queue)) (s.reader.state.serves p) (s.port p).toReader
    (s.port p).idResults.length (s.port p).state.plugKind

/-- Port `p` agrees with the governor. -/
def State.grantFits (s : State) (p : PortNo) : Prop :=
  GrantFit (decide (p ∈ s.governor.queue)) (s.governor.holders.get p) (s.port p).toGovernor
    (s.port p).fromGovernor (s.port p).state.holding

theorem queuesSound_iff (s : State) :
    s.queuesSound = true ↔
      s.reader.sound = true ∧ s.governor.queue.Nodup ∧ (∀ p, s.readerFits p) ∧ ∀ p, s.grantFits p := by
  unfold State.queuesSound
  rw [Bool.and_eq_true, Bool.and_eq_true, List.all_eq_true, decide_eq_true_eq, and_assoc]
  refine and_congr Iff.rfl (and_congr Iff.rfl ⟨fun h => ⟨fun p => ?_, fun p => ?_⟩, fun h p _ => ?_⟩)
  · exact (readerPortSound_iff s p).1 (Bool.and_eq_true_iff.1 (h p (mem_allPorts p))).1
  · exact (grantPortSound_iff s p).1 (Bool.and_eq_true_iff.1 (h p (mem_allPorts p))).2
  · exact Bool.and_eq_true_iff.2 ⟨(readerPortSound_iff s p).2 (h.1 p), (grantPortSound_iff s p).2 (h.2 p)⟩

/-! ## What a step keeps -/

/-- From `s` to `t` the invariants of ports and rig are kept, and on sound ports that of the two queues. -/
structure Keeps (s t : State) : Prop where
  ports : s.portsSound = true → t.portsSound = true
  rig : s.rigSound = true → t.rigSound = true
  queues : s.portsSound = true → s.queuesSound = true → t.queuesSound = true

namespace Keeps

theorem refl (s : State) : Keeps s s := ⟨id, id, fun _ => id⟩

theorem trans (h : Keeps s t) (k : Keeps t u) : Keeps s u :=
  ⟨fun hp => k.ports (h.ports hp), fun hr => k.rig (h.rig hr), fun hp hq => k.queues (h.ports hp) (h.queues hp hq)⟩

/-- Nothing changes that the three invariants read. -/
theorem of_same (hp : t.ports = s.ports) (hr : t.reader = s.reader) (hg : t.governor = s.governor)
    (hm : t.monitor = s.monitor) (hc : t.cadence = s.cadence) : Keeps s t := by
  refine ⟨fun h => ?_, fun h => ?_, fun _ h => ?_⟩
  · rw [portsSound_iff] at h ⊢
    exact fun p => by rw [port_congr hp]; exact h p
  · unfold State.rigSound at h ⊢
    rw [hg, hm, hc]; exact h
  · rw [queuesSound_iff] at h ⊢
    simp only [State.readerFits, State.grantFits] at h ⊢
    simp only [port_congr hp, hr, hg]
    exact h

/-- Ports that keep their place, with the queues and slots of governor and reader as they were. -/
theorem of_ports (hports : ∀ p, (s.port p).Good → (t.port p).Good ∧ (s.port p).Moves (t.port p))
    (hreader : t.reader = s.reader) (hgov : t.governor = s.governor) (hrig : s.rigSound = true → t.rigSound = true) :
    Keeps s t := by
  refine ⟨fun h => ?_, hrig, fun h hq => ?_⟩
  · rw [portsSound_iff] at h ⊢
    exact fun p => (hports p (h p)).1
  · rw [portsSound_iff] at h
    rw [queuesSound_iff] at hq ⊢
    obtain ⟨hsound, hnodup, hread, hgrant⟩ := hq
    rw [hreader, hgov]
    refine ⟨hsound, hnodup, fun p => ?_, fun p => ?_⟩
    · obtain ⟨hpass, hkind⟩ := (hports p (h p)).2
      unfold State.readerFits
      rw [hreader, hpass.toReader, hpass.results, hkind]
      exact hread p
    · obtain ⟨hpass, -⟩ := (hports p (h p)).2
      unfold State.grantFits
      rw [hgov]
      exact hpass.grant _ _ (hgrant p)

theorem rigSound_congr (hg : t.governor = s.governor) (hm : t.monitor = s.monitor) (hc : t.cadence = s.cadence)
    (h : s.rigSound = true) : t.rigSound = true := by
  unfold State.rigSound at h ⊢
  rw [hg, hm, hc]; exact h

/-- A change of port `p`. -/
theorem of_portStep (h : PortStep p s t) (hr : t.reader = s.reader)
    (hp : (s.port p).Good → (t.port p).Good ∧ (s.port p).Moves (t.port p)) : Keeps s t := by
  obtain ⟨-, ⟨hc, -⟩, -, hg, hm⟩ := h.rig
  refine of_ports (fun q hq => ?_) hr hg (rigSound_congr hg hm hc)
  by_cases hqp : q = p
  · subst hqp; exact hp hq
  · rw [h.others q hqp]; exact ⟨hq, .of_mail rfl rfl⟩

/-- What ends every event. -/
theorem settle (h : Keeps s t) : Keeps s (settle t) :=
  h.trans (of_same (by simp) (by simp) (by simp) (by simp) (by simp))

/-- The posting of the port's slot. -/
theorem atPort {f : State → State} (h : Keeps s (f s)) : Keeps s (s.atPort p f) :=
  h.trans (of_same (by simp) (by simp) (by simp) (by simp) (by simp))

end Keeps

/-! ## Events -/

/-- What holds of every state that the outcome goes on with. -/
def Reaches (o : Host.Outcome State Fault Refusal) (R : State → Prop) : Prop := ∀ t, o = .next t → R t

theorem Keeps.quiet (s : State) : Keeps s s.quiet := .of_same rfl rfl rfl rfl rfl

theorem Keeps.event {body : State → State} (h : Keeps s.quiet (body s.quiet)) : Reaches (event body s) (Keeps s) := by
  intro t ht
  cases ht
  exact (Keeps.quiet s).trans h.settle

theorem Keeps.noEvent : Reaches (noEvent s) (Keeps s) := by
  intro t ht
  cases ht
  exact .quiet s

/-- An event at a port. -/
theorem Keeps.portEvent {body : State → State} (h : PortStep p s.quiet (body s.quiet))
    (hr : (body s.quiet).reader = s.reader)
    (hp : (s.port p).Good → ((body s.quiet).port p).Good ∧ (s.port p).Moves ((body s.quiet).port p)) :
    Reaches (Machine.portEvent p body s) (Keeps s) :=
  Keeps.event (Keeps.of_portStep h hr hp).atPort

/-- An event at a port whose body is a run of changes of its record. -/
theorem Keeps.portRun {gives : Bool} {body : State → State} (h : PortRun p gives s.quiet (body s.quiet))
    (hp : (s.port p).Good → ((body s.quiet).port p).Good ∧ (s.port p).Moves ((body s.quiet).port p)) :
    Reaches (Machine.portEvent p body s) (Keeps s) :=
  Keeps.portEvent h.portStep h.reader hp

/-- An event at a port that changes its record by one function. -/
theorem Keeps.portChange {f : Port → Port} (hw : ∀ x, (f x).waiters = x.waiters)
    (hp : (s.port p).Good → (f (s.port p)).Good ∧ (s.port p).Moves (f (s.port p))) :
    Reaches (Machine.portEvent p (fun s => s.modPort p f) s) (Keeps s) :=
  Keeps.portRun (body := fun s => s.modPort p f) ((PortRun.refl (gives := false)).modPort f hw) fun h => by
    rw [port_modPort_self]
    exact hp h

/-! ## Deadlines and beats of a port -/

theorem timerDue_iff (st : PState) : timerDue p st s = true ↔ (s.port p).state = st ∧ (s.port p).timer = some 0 := by
  simp [timerDue]

theorem execSettleExpiry_keeps (p : PortNo) : Reaches (execSettleExpiry p s) (Keeps s) := by
  unfold execSettleExpiry
  split <;> rename_i hdue
  · obtain ⟨hst, -⟩ := (timerDue_iff _).1 hdue
    refine Keeps.portRun (PortRun.refl (gives := false)).settleDone fun h => ?_
    rw [settleDone_port]
    exact ⟨h.booted _ hst, Port.booted_moves _ hst⟩
  · exact Keeps.noEvent

theorem execWakePulseEnd_keeps (p : PortNo) : Reaches (execWakePulseEnd p s) (Keeps s) := by
  unfold execWakePulseEnd
  split
  · exact Keeps.portChange (fun _ => rfl) fun h => ⟨h.wakeEnded, .of_mail rfl rfl⟩
  · exact Keeps.noEvent

theorem execBootLimitExpiry_keeps (p : PortNo) : Reaches (execBootLimitExpiry p s) (Keeps s) := by
  unfold execBootLimitExpiry
  split <;> rename_i hdue
  · obtain ⟨hst, -⟩ := (timerDue_iff _).1 hdue
    refine Keeps.portRun PortRun.refl.bootLimitDone fun h => ?_
    rw [bootLimitDone_port]
    exact ⟨h.bootLimited _ hst, Port.bootLimited_moves _ hst⟩
  · exact Keeps.noEvent

/-- A fault of a port whose lane is open. -/
theorem Keeps.fault {r : FaultReason} (hr : (PState.faulted r).noRecord = false)
    (hopen : (s.port p).state.laneOpen = true) : Reaches (Machine.portEvent p (Machine.fault p r) s) (Keeps s) := by
  refine Keeps.portRun (PortRun.refl.fault r) fun h => ?_
  rw [fault_port]
  exact ⟨h.faultEntered (Port.present_of_laneOpen hopen) hr _,
    Port.moves_faultEntered _ r (Port.known_of_laneOpen hopen)⟩

theorem execHoldLimitExpiry_keeps (p : PortNo) : Reaches (execHoldLimitExpiry p s) (Keeps s) := by
  unfold execHoldLimitExpiry
  split <;> rename_i hdue
  · exact Keeps.fault rfl (by rw [((timerDue_iff _).1 hdue).1]; rfl)
  · exact Keeps.noEvent

theorem execResumeLimitExpiry_keeps (p : PortNo) : Reaches (execResumeLimitExpiry p s) (Keeps s) := by
  unfold execResumeLimitExpiry
  split <;> rename_i hdue
  · exact Keeps.fault rfl (by rw [((timerDue_iff _).1 hdue).1]; rfl)
  · exact Keeps.noEvent

theorem execStopLimitExpiry_keeps (p : PortNo) : Reaches (execStopLimitExpiry p s) (Keeps s) := by
  unfold execStopLimitExpiry
  split <;> rename_i hdue
  · obtain ⟨hst, -⟩ := (timerDue_iff _).1 hdue
    have hx : (s.port p).state.unbound = true := by rw [hst]; rfl
    refine Keeps.portRun PortRun.refl.stopLimitDone fun h => ?_
    rw [stopLimitDone, enterOff_port, cutRail_port, cutRail_cadence]
    exact ⟨h.stopLimited _ hst,
      .wentOff _ (Port.holding_of_unbound hx).2 (Port.railCut_passes .stopLimit hx)⟩
  · exact Keeps.noEvent

theorem execKeepaliveBoundary_keeps (p : PortNo) : Reaches (execKeepaliveBoundary p s) (Keeps s) := by
  unfold execKeepaliveBoundary
  split
  · rename_i b rest _
    refine Keeps.portRun (PortRun.refl.takeBoundary b rest) fun h => ?_
    rw [takeBoundary_port]
    exact ⟨h.boundaryTaken _ p b rest, Port.boundaryTaken_moves _ p b rest⟩
  · exact Keeps.noEvent

/-! ## Messages of the governor -/

theorem execGrant_keeps (p : PortNo) : Reaches (execGrant p s) (Keeps s) := by
  unfold execGrant
  split <;> rename_i hhead
  · obtain ⟨rest, hx⟩ := List.head?_eq_some_iff.1 hhead
    refine Keeps.portRun (PortRun.refl (gives := false)).takeGrant fun h => ?_
    rw [takeGrant_port]
    exact ⟨h.grantTaken _, Port.grantTaken_moves _ hx⟩
  · exact Keeps.noEvent

theorem execTripCut_keeps (p : PortNo) : Reaches (execTripCut p s) (Keeps s) := by
  unfold execTripCut
  split <;> rename_i hhead
  · obtain ⟨rest, hx⟩ := List.head?_eq_some_iff.1 hhead
    refine Keeps.portRun PortRun.refl.takeTripCut fun h => ?_
    rw [takeTripCut_port]
    exact ⟨h.tripCutTaken _, Port.tripCutTaken_moves _ hx⟩
  · exact Keeps.noEvent

end Sys2Proof.Machine
end

section
/-! The events of a lane keep the invariants of ports, rig and queues. -/

set_option Elab.async false

namespace Sys2Proof.Machine

variable {p : PortNo} {s t u : State}

/-! ## The lane -/

/-- A restart mark stands only while a SET is in flight (R87). -/
theorem Port.Good.carries_of_restart {x : Port} (h : x.Good) (hr : x.restart = true) : x.lane.carries .set = true := by
  by_contra hc
  have := h.restart_of_free (by simpa using hc)
  rw [hr] at this
  cases this

/-- An event that makes another lane state of an open lane hands nothing on. -/
theorem Keeps.lane {l : Lane} {body : State → State} (hrun : PortRun p false s.quiet (body s.quiet))
    (hport : (body s.quiet).port p = { s.port p with lane := l }) (hl : (s.port p).lane ≠ .closed) (hne : l ≠ .closed)
    (hfits : (s.port p).Good → ((s.port p).restart = true → l.carries .set = true) ∧
      ∀ ph, l.phrase? = some ph → ph.name.sentIn (s.port p).state = true ∧ 1 ≤ ph.attempt ∧
        ph.attempt ≤ l.lastAttempt ∧ ph.next < ph.symbols.length) :
    Reaches (Machine.portEvent p body s) (Keeps s) := by
  refine Keeps.portRun hrun fun h => ?_
  obtain ⟨hset, hphrase⟩ := hfits h
  rw [hport]
  exact ⟨h.relaned (h.laneOpen hl) hne hset hphrase, .of_mail rfl rfl⟩

/-- The end of a phrase that is being sent. -/
theorem Keeps.endPhrase {body : State → State} {ph : Phrase} {d : Nat} {ok : Bool}
    (hl : (s.port p).lane = .sending ph d) (hrun : PortRun p true s.quiet (body s.quiet))
    (hport : (body s.quiet).port p = (s.port p).phraseEnded ph ok s.cadence.beat) :
    Reaches (Machine.portEvent p body s) (Keeps s) := by
  refine Keeps.portRun hrun fun h => ?_
  rw [hport]
  exact ⟨Port.phraseEnded_good h hl ok _, Port.phraseEnded_moves _ h hl ok⟩

/-- A phrase with another attempt, deadline or place is carried as before. -/
theorem carries_of_name {l l' : Lane} {ph : Phrase} (hl : l.phrase? = some ph)
    (hl' : l'.phrase?.map (·.name) = some ph.name) (n : PhraseName) : l'.carries n = l.carries n := by
  obtain ⟨ph', hph', hname⟩ := Option.map_eq_some_iff.1 hl'
  unfold Lane.carries
  rw [hl, hph']
  simp only [hname]

theorem execAckWaitExpiry_keeps (p : PortNo) : Reaches (execAckWaitExpiry p s) (Keeps s) := by
  unfold execAckWaitExpiry
  split <;> rename_i hl
  · rename_i ph
    by_cases hatt : ph.attempt < Config.maxAttempts
    · have hfails : attemptFails p ph =
          fun u => (u.emit [.laneEnd p]).modPort p fun x => { x with lane := .gap ph Config.retryGapMs } := by
        funext u
        exact if_pos hatt
      rw [hfails]
      refine Keeps.lane (l := .gap ph Config.retryGapMs) ((PortRun.refl.emit _).mod) (port_modPort_self _ _ _)
        (by rw [hl]; exact Lane.noConfusion) Lane.noConfusion fun h => ⟨fun hr => ?_, fun ph' hph => ?_⟩
      · rw [carries_of_name (l := (s.port p).lane) (ph := ph) (by rw [hl]; rfl) rfl]
        exact h.carries_of_restart hr
      · obtain rfl : ph = ph' := Option.some.inj hph
        obtain ⟨hs, hone, -, hnext⟩ := h.phrase ph (by rw [hl]; rfl)
        exact ⟨hs, hone, Nat.le_of_lt_succ hatt, hnext⟩
    · have hfails : attemptFails p ph = fun u => endPhrase p ph false (u.emit [.laneEnd p]) := by
        funext u
        exact if_neg hatt
      rw [hfails]
      exact Keeps.endPhrase hl ((PortRun.refl.emit _).endPhrase ph false) (endPhrase_port _ _ ph false)
  · exact Keeps.noEvent

theorem execRetryGapExpiry_keeps (p : PortNo) : Reaches (execRetryGapExpiry p s) (Keeps s) := by
  unfold execRetryGapExpiry
  split <;> rename_i hl
  · rename_i ph
    refine Keeps.lane (l := .sending { ph with attempt := ph.attempt + 1, next := 0 } Config.ackWaitMs)
      (PortRun.refl.beginAttempt _) (beginAttempt_port _ _ _) (by rw [hl]; exact Lane.noConfusion) Lane.noConfusion
      fun h => ⟨fun hr => ?_, fun ph' hph => ?_⟩
    · rw [carries_of_name (l := (s.port p).lane) (ph := ph) (by rw [hl]; rfl) rfl]
      exact h.carries_of_restart hr
    · obtain rfl := Option.some.inj hph
      obtain ⟨hs, -, hlast, hnext⟩ := h.phrase ph (by rw [hl]; rfl)
      rw [hl] at hlast
      exact ⟨hs, Nat.succ_le_succ (Nat.zero_le _), Nat.succ_le_succ hlast, Nat.lt_of_le_of_lt (Nat.zero_le _) hnext⟩
  · exact Keeps.noEvent

theorem execSymbolAcknowledged_keeps (p : PortNo) : Reaches (execSymbolAcknowledged p s) (Keeps s) := by
  unfold execSymbolAcknowledged
  split <;> rename_i hl
  · rename_i ph d
    split <;> rename_i hcheck
    · exact Keeps.noEvent
    · refine Keeps.lane (l := .sending { ph with next := ph.next + 1 } Config.ackWaitMs)
        (PortRun.refl.sendNext ph) ((port_emit _ _ _).trans (port_modPort_self _ _ _)) (by rw [hl]; exact Lane.noConfusion) Lane.noConfusion
        fun h => ⟨fun hr => ?_, fun ph' hph => ?_⟩
      · rw [carries_of_name (l := (s.port p).lane) (ph := ph) (by rw [hl]; rfl) rfl]
        exact h.carries_of_restart hr
      · obtain rfl := Option.some.inj hph
        obtain ⟨hs, hone, hlast, hnext⟩ := h.phrase ph (by rw [hl]; rfl)
        rw [hl] at hlast
        have hmore : ph.next + 1 ≠ ph.symbols.length := by simpa [Phrase.atCheck] using hcheck
        exact ⟨hs, hone, hlast, Nat.lt_of_le_of_ne hnext hmore⟩
  · exact Keeps.noEvent

theorem execPartPhraseEndOk_keeps (p : PortNo) : Reaches (execPartPhraseEndOk p s) (Keeps s) := by
  unfold execPartPhraseEndOk
  split <;> rename_i hl
  · rename_i ph d
    split
    · exact Keeps.endPhrase hl (PortRun.refl.phraseEndsOk ph) (endPhrase_port _ _ ph true)
    · exact Keeps.noEvent
  · exact Keeps.noEvent

/-! ## Receptions -/

theorem execCameraStartMark_keeps (p : PortNo) : Reaches (execCameraStartMark p s) (Keeps s) := by
  unfold execCameraStartMark
  split <;> rename_i hl
  · refine Keeps.lane (l := .receiving { stored := [], count := 0, damaged := false }) PortRun.refl.beginReception
      (port_modPort_self _ _ _) (by rw [hl]; exact Lane.noConfusion) Lane.noConfusion
      fun h => ⟨fun hr => ?_, fun _ hph => by cases hph⟩
    have := h.carries_of_restart hr
    rw [hl] at this
    cases this
  · exact Keeps.noEvent

theorem execCameraSymbolReceived_keeps (p : PortNo) (data : LaneBits) (parity : Bool) :
    Reaches (execCameraSymbolReceived p data parity s) (Keeps s) := by
  unfold execCameraSymbolReceived
  split <;> rename_i hl
  · rename_i rx
    have hopen : (s.port p).lane ≠ .closed := by rw [hl]; exact Lane.noConfusion
    have hfits : ∀ rx' : RxBuffer, (s.port p).Good →
        ((s.port p).restart = true → (Lane.receiving rx').carries .set = true) ∧
          ∀ ph, (Lane.receiving rx').phrase? = some ph → ph.name.sentIn (s.port p).state = true ∧ 1 ≤ ph.attempt ∧
            ph.attempt ≤ (Lane.receiving rx').lastAttempt ∧ ph.next < ph.symbols.length :=
      fun rx' h => by
        refine ⟨fun hr => ?_, fun _ hph => by cases hph⟩
        have := h.carries_of_restart hr
        rw [hl] at this
        cases this
    split
    · by_cases hgood : rx.damaged = false ∧ parityGood data parity = true
      · refine Keeps.lane
          (l := .receiving { rx with stored := rx.stored ++ [laneData data], count := rx.count + 1 })
          (PortRun.refl.clockIn rx data parity) ?_ hopen Lane.noConfusion (hfits _)
        unfold clockIn
        rw [if_pos hgood, port_emit]
        exact port_modPort_self _ _ _
      · refine Keeps.lane (l := .receiving { rx with count := rx.count + 1, damaged := true })
          (PortRun.refl.clockIn rx data parity) ?_ hopen Lane.noConfusion (hfits _)
        unfold clockIn
        rw [if_neg hgood, port_emit]
        exact port_modPort_self _ _ _
    · exact Keeps.noEvent
  · exact Keeps.noEvent

/-- A reception is discarded (R55, R56). -/
theorem Keeps.discardReception {rx : RxBuffer} (hl : (s.port p).lane = .receiving rx) :
    Reaches (Machine.portEvent p (Machine.discardReception p) s) (Keeps s) := by
  refine Keeps.portRun (PortRun.refl (gives := false)).discardReception fun h => ?_
  have hopen := h.laneOpen (by rw [hl]; exact Lane.noConfusion)
  rw [Machine.discardReception, grantPoint_port, freeLane_port]
  exact ⟨(h.laneFreed hopen (h.restart_of_free (by rw [hl]; rfl))).granted,
    Port.Moves.granted (.of_mail rfl rfl)⟩

theorem execReceiveLimit_keeps (p : PortNo) : Reaches (execReceiveLimit p s) (Keeps s) := by
  unfold execReceiveLimit
  split <;> rename_i hl
  · split
    · exact Keeps.noEvent
    · exact Keeps.discardReception hl
  · exact Keeps.noEvent

/-- What is heard is heard in a reception. -/
theorem receiving_of_heard {x : Port} (h : x.heard ≠ .nothing) : ∃ rx, x.lane = .receiving rx := by
  unfold Port.heard at h
  split at h
  · exact ⟨_, ‹_›⟩
  · exact absurd rfl h

theorem execCameraPhraseDiscarded_keeps (p : PortNo) : Reaches (execCameraPhraseDiscarded p s) (Keeps s) := by
  unfold execCameraPhraseDiscarded
  split <;> rename_i hh
  · obtain ⟨rx, hl⟩ := receiving_of_heard (x := s.port p) (by rw [hh]; exact Heard.noConfusion)
    exact Keeps.discardReception hl
  · exact Keeps.noEvent

/-- A valid camera phrase that the sequencer takes (R56). -/
theorem Keeps.endReception {take : State → State} {f : Port → Port} (hh : (s.port p).heard ≠ .nothing)
    (hstep : PortStep p s.quiet (endReception p take s.quiet))
    (hreader : (endReception p take s.quiet).reader = s.reader)
    (hport : (endReception p take s.quiet).port p = (f (s.port p).endOfReception).granted)
    (hf : ∀ x : Port, x.Good → x.lane = .free → (f x).Good ∧ x.Moves (f x)) :
    Reaches (Machine.portEvent p (Machine.endReception p take) s) (Keeps s) := by
  obtain ⟨rx, hl⟩ := receiving_of_heard hh
  refine Keeps.portEvent hstep hreader fun h => ?_
  obtain ⟨hgood, hmoves⟩ := hf _ (h.endOfReception hl) (Port.endOfReception_lane _)
  rw [hport]
  exact ⟨hgood.granted, ((Port.Moves.of_mail Port.endOfReception_mail (endOfReception_state _)).trans hmoves).granted⟩

theorem execHello_keeps (p : PortNo) : Reaches (execHello p s) (Keeps s) := by
  unfold execHello
  split <;> rename_i hh
  · rename_i c f
    refine Keeps.endReception (f := fun x => x.helloTaken c f s.cadence.beat) (by rw [hh]; exact Heard.noConfusion)
      (PortRun.refl.endReception (gives := true) fun v => PortRun.refl.takeHello c f).portStep
      (PortRun.refl.endReception (gives := true) fun v => PortRun.refl.takeHello c f).reader ?_ fun x h hl => ?_
    · rw [endReception_eq, grantPoint_port, takeHello_port, port_modPort_self]; rfl
    · exact ⟨h.helloTaken hl c f _, Port.helloTaken_moves _
        (Port.known_of_laneOpen (h.laneOpen (by rw [hl]; exact Lane.noConfusion))) c f⟩
  · exact Keeps.noEvent

theorem execSettled_keeps (p : PortNo) : Reaches (execSettled p s) (Keeps s) := by
  unfold execSettled
  split <;> rename_i hh
  · refine Keeps.endReception (f := fun x => x.settledTaken s.cadence.beat) (by rw [hh]; exact Heard.noConfusion)
      (PortRun.refl.endReception (gives := true) fun v => PortRun.refl.takeSettled).portStep
      (PortRun.refl.endReception (gives := true) fun v => PortRun.refl.takeSettled).reader ?_ fun x h hl => ?_
    · rw [endReception_eq, grantPoint_port, takeSettled_port, port_modPort_self]; rfl
    · exact ⟨h.settledTaken hl _, Port.settledTaken_moves _⟩
  · exact Keeps.noEvent

theorem execAwake_keeps (p : PortNo) : Reaches (execAwake p s) (Keeps s) := by
  unfold execAwake
  split <;> rename_i hh
  · refine Keeps.endReception (f := fun x => x.awakeTaken s.cadence.beat) (by rw [hh]; exact Heard.noConfusion)
      (PortRun.refl.endReception (gives := true) fun v => PortRun.refl.takeAwake).portStep
      (PortRun.refl.endReception (gives := true) fun v => PortRun.refl.takeAwake).reader ?_ fun x h hl => ?_
    · rw [endReception_eq, grantPoint_port, takeAwake_port, port_modPort_self]; rfl
    · exact ⟨h.awakeTaken hl _, Port.awakeTaken_moves _⟩
  · exact Keeps.noEvent

theorem execParting_keeps (p : PortNo) : Reaches (execParting p s) (Keeps s) := by
  unfold execParting
  split <;> rename_i hh
  · refine Keeps.endReception (f := fun x => x.partingTaken (s.stampCounter + 1) s.cadence.beat)
      (by rw [hh]; exact Heard.noConfusion) endReception_takeParting_step ?_ ?_ fun x h hl => ?_
    · rw [endReception_eq, (PortRun.refl (gives := true)).grantPoint.reader, takeParting_reader]; rfl
    · rw [endReception_eq, grantPoint_port, takeParting_port, port_modPort_self]; rfl
    · exact ⟨h.partingTaken _ _, Port.partingTaken_moves _ _⟩
  · exact Keeps.noEvent

/-! ## Profiles -/

theorem execProfileReplacement_keeps (p : PortNo) : Reaches (execProfileReplacement p s) (Keeps s) := by
  unfold execProfileReplacement
  split
  · rename_i l rest _
    refine Keeps.portRun (body := fun u => takeReplacement p l (u.modPort p fun x => { x with replacements := rest }))
      (PortRun.refl.mod.takeReplacement l) fun h => ?_
    have haside : ({ s.port p with replacements := rest } : Port).Good := h.aside
    rw [takeReplacement_port, port_modPort_self]
    exact ⟨haside.profileReplaced _ l,
      Port.Moves.trans (y := { s.port p with replacements := rest }) (.of_mail rfl rfl)
        (Port.profileReplaced_moves _ l)⟩
  · exact Keeps.noEvent

end Sys2Proof.Machine
end

section
/-! The agreement of a port with the Reader Queue through joins, withdrawals and results (R69, R74 to R77). -/

set_option Elab.async false

namespace Sys2Proof.Machine

/-! ## One port and the queue -/

namespace ReaderFit

variable {queued serves serves' : Bool} {m : List ReaderMsg} {n : Nat} {k : PlugKind}

/-- The messages on their way are a withdrawal, then a join, or fewer. -/
theorem mail_cases (h : ReaderFit queued serves m n k) :
    m = [] ∨ m = [.withdrawal] ∨ m = [.join] ∨ m = [.withdrawal, .join] := by
  have hmail := h.mail
  by_cases hw : ReaderMsg.withdrawal ∈ m <;> by_cases hj : ReaderMsg.join ∈ m <;>
    simp only [hw, hj, if_true, if_false] at hmail <;> simp [hmail]

/-- Whom the reader serves counts only for a port that stands in the queue. -/
theorem serving (h : ReaderFit queued serves m n k) (hs : queued = true → serves = true → serves' = true) :
    ReaderFit queued serves' m n k := by
  refine ⟨h.mail, fun hq => ?_, h.one, h.kind⟩
  have hplace := h.place hq
  split at hplace <;> rename_i hw
  · rw [if_pos hw]; exact hs hq hplace
  · rw [if_neg hw]; exact hplace

/-- A port of which the queue knows nothing and nothing is on its way. -/
theorem known_iff : ReaderFit queued serves m n .known ↔ queued = false ∧ m = [] ∧ n = 0 := by
  constructor
  · intro h
    obtain ⟨hj, hw, hn⟩ := h.kind
    refine ⟨?_, ?_, hn⟩
    · by_contra hq
      have hplace := h.place (by simpa using hq)
      rw [if_neg hw] at hplace
      cases hplace.1
    · have hmail := h.mail
      rwa [if_neg hw, if_neg hj] at hmail
  · rintro ⟨rfl, rfl, rfl⟩
    exact ⟨by simp, fun hq => (Bool.false_ne_true hq).elim, by simp, by simp [PlugKind.fits]⟩

/-- An EMPTY port's place, if it has one, is that of the read its withdrawal will end. -/
theorem gone_iff :
    ReaderFit queued serves m n .gone ↔
      (m = [] ∧ queued = false ∨ m = [.withdrawal] ∧ (queued = true → serves = true)) ∧ n + queued.toNat ≤ 1 := by
  constructor
  · intro h
    refine ⟨?_, h.one⟩
    have hj : ReaderMsg.join ∉ m := h.kind
    by_cases hw : ReaderMsg.withdrawal ∈ m
    · have hmail := h.mail
      rw [if_pos hw, if_neg hj] at hmail
      exact .inr ⟨hmail, fun hq => by have := h.place hq; rwa [if_pos hw] at this⟩
    · have hmail := h.mail
      rw [if_neg hw, if_neg hj] at hmail
      refine .inl ⟨hmail, ?_⟩
      by_contra hq
      have hplace := h.place (by simpa using hq)
      rw [if_neg hw] at hplace
      cases hplace.1
  · rintro ⟨⟨rfl, rfl⟩ | ⟨rfl, hs⟩, hone⟩
    · exact ⟨by simp, fun hq => (Bool.false_ne_true hq).elim, hone, by simp [PlugKind.fits]⟩
    · exact ⟨by simp, fun hq => by simpa using hs hq, hone, by simp [PlugKind.fits]⟩

/-- An IDENTIFYING port: its join is on its way, or it stands in the queue, or its result is to be taken. -/
theorem identifying_iff :
    ReaderFit queued serves m n .identifying ↔
      (m = [.join] ∧ queued = false ∧ n = 0 ∨ m = [.withdrawal, .join] ∧ (queued = true → serves = true) ∧ n = 0 ∨
        m = [] ∧ n + queued.toNat = 1) := by
  constructor
  · intro h
    have hkind := h.kind
    have hplace := h.place
    have hone := h.one
    rcases h.mail_cases with rfl | rfl | rfl | rfl
    · right; right
      cases queued <;> simp_all [PlugKind.fits]
    · simp [PlugKind.fits] at hkind
    · cases queued <;> simp_all [PlugKind.fits]
    · simp_all [PlugKind.fits]
  · rintro (⟨rfl, rfl, rfl⟩ | ⟨rfl, hs, rfl⟩ | ⟨rfl, hone⟩)
    · exact ⟨by simp, fun hq => (Bool.false_ne_true hq).elim, by simp, by simp [PlugKind.fits]⟩
    · exact ⟨by simp, fun hq => by simpa using hs hq, by cases queued <;> simp, by simp [PlugKind.fits]⟩
    · exact ⟨by simp, fun _ => by simp, hone.le, by cases queued <;> simp_all [PlugKind.fits]⟩

/-- A debounced insertion (R68): the join goes behind a withdrawal still on its way. -/
theorem inserted (h : ReaderFit queued serves m n .gone) : ReaderFit queued serves (m ++ [.join]) 0 .identifying := by
  obtain ⟨⟨rfl, hq⟩ | ⟨rfl, hs⟩, -⟩ := gone_iff.1 h
  · exact identifying_iff.2 (.inl ⟨rfl, hq, rfl⟩)
  · exact identifying_iff.2 (.inr (.inl ⟨rfl, hs, rfl⟩))

/-- A port read again (R77). -/
theorem readAgain (h : ReaderFit queued serves m n .known) : ReaderFit queued serves (m ++ [.join]) n .identifying := by
  obtain ⟨hq, rfl, hn⟩ := known_iff.1 h
  exact identifying_iff.2 (.inl ⟨rfl, hq, hn⟩)

/-- A debounced removal of a port whose plug is known (R29). -/
theorem removedKnown (h : ReaderFit queued serves m n .known) : ReaderFit queued serves m n .gone := by
  obtain ⟨rfl, rfl, rfl⟩ := known_iff.1 h
  exact gone_iff.2 ⟨.inl ⟨rfl, rfl⟩, Nat.zero_le _⟩

/-- A debounced removal of an IDENTIFYING port (R29, R75, R76): a port that waits leaves the queue, a join on its way
is annulled, a port being read hands a withdrawal. -/
theorem removedIdentifying (h : ReaderFit queued serves m n .identifying) :
    ReaderFit (queued && serves) serves
      (m.filter (· != .join) ++ if queued && !serves || decide (.join ∈ m) then [] else [.withdrawal]) n .gone := by
  refine gone_iff.2 ?_
  rcases identifying_iff.1 h with ⟨rfl, rfl, rfl⟩ | ⟨rfl, hs, rfl⟩ | ⟨rfl, hone⟩
  · exact ⟨.inl (by simp), by simp⟩
  · refine ⟨.inr ⟨?_, by simp⟩, ?_⟩
    · simp
    · cases queued <;> cases serves <;> simp
  · cases queued <;> cases serves <;> simp_all

/-- The result of an IDENTIFYING port is taken (R74). -/
theorem resultTaken (h : ReaderFit queued serves m (n + 1) .identifying) : ReaderFit queued serves m n .known := by
  rcases identifying_iff.1 h with ⟨-, -, hn⟩ | ⟨-, -, hn⟩ | ⟨rfl, hone⟩
  · cases hn
  · cases hn
  · exact known_iff.2 (by cases queued <;> simp_all)

/-- A result that finds no identification is dropped (R74). -/
theorem resultDropped (h : ReaderFit queued serves m (n + 1) k) (hk : k ≠ .identifying) :
    ReaderFit queued serves m n k := by
  cases k with
  | identifying => exact absurd rfl hk
  | gone =>
    obtain ⟨hm, hone⟩ := gone_iff.1 h
    exact gone_iff.2 ⟨hm, by omega⟩
  | known => cases (known_iff.1 h).2.2

/-- The reader takes a join (R70). -/
theorem joined (h : ReaderFit queued serves (.join :: m) n k) :
    queued = false ∧ ReaderFit true serves' m n k := by
  cases k with
  | identifying =>
    rcases identifying_iff.1 h with ⟨hm, hq, rfl⟩ | ⟨hm, -, -⟩ | ⟨hm, -⟩
    · exact ⟨hq, identifying_iff.2 (.inr (.inr ⟨by simpa using hm, by simp⟩))⟩
    · cases hm
    · cases hm
  | gone => obtain ⟨⟨hm, -⟩ | ⟨hm, -⟩, -⟩ := gone_iff.1 h <;> cases hm
  | known => cases (known_iff.1 h).2.1

/-- The reader takes a withdrawal (R76): only a port that it serves is still in the queue. -/
theorem withdrawn (h : ReaderFit queued serves (.withdrawal :: m) n k) :
    (queued = true → serves = true) ∧ ReaderFit false serves' m n k := by
  cases k with
  | identifying =>
    rcases identifying_iff.1 h with ⟨hm, -, -⟩ | ⟨hm, hs, rfl⟩ | ⟨hm, -⟩
    · cases hm
    · exact ⟨hs, identifying_iff.2 (.inl ⟨by simpa using hm, rfl, rfl⟩)⟩
    · cases hm
  | gone =>
    obtain ⟨⟨hm, -⟩ | ⟨hm, hs⟩, hone⟩ := gone_iff.1 h
    · cases hm
    · exact ⟨hs, gone_iff.2 ⟨.inl ⟨by simpa using hm, rfl⟩, by simp; omega⟩⟩
  | known => cases (known_iff.1 h).2.1

/-- The read of a port ends (R74): its result goes to the identification it belongs to. -/
theorem delivered (h : ReaderFit true serves m n k) :
    ReaderFit false serves' m (if k = .identifying ∧ .withdrawal ∈ m then n else n + 1) k := by
  cases k with
  | identifying =>
    rcases identifying_iff.1 h with ⟨-, hq, -⟩ | ⟨rfl, -, rfl⟩ | ⟨rfl, hone⟩
    · cases hq
    · exact identifying_iff.2 (.inr (.inl ⟨rfl, by simp, by simp⟩))
    · exact identifying_iff.2 (.inr (.inr ⟨rfl, by simpa using hone⟩))
  | gone =>
    obtain ⟨⟨-, hq⟩ | ⟨hm, -⟩, hone⟩ := gone_iff.1 h
    · cases hq
    · exact gone_iff.2 ⟨.inr ⟨hm, by simp⟩, by simpa using hone⟩
  | known => cases (known_iff.1 h).1

end ReaderFit

/-! ## The reader -/

/-- The read in progress is that of the head of the queue (R70). -/
def ReaderState.readsHead (queue : List PortNo) : ReaderState → Prop
  | .idle => queue = []
  | .reading r => queue.head? = some r.port ∧ (r.tryNo = 1 ∨ r.tryNo = 2)
  | .retryWait r _ => queue.head? = some r.port ∧ r.tryNo = 1

theorem readerSound_iff (r : Reader) : r.sound = true ↔ r.queue.Nodup ∧ r.state.readsHead r.queue := by
  unfold Reader.sound
  cases r.state <;> simp [ReaderState.readsHead]

/-- The port that the reader serves stands at the head of the queue. -/
theorem head_of_serves {queue : List PortNo} {st : ReaderState} {p : PortNo} (h : st.readsHead queue)
    (hs : st.serves p = true) : ∃ rest, queue = p :: rest := by
  cases st with
  | idle => cases hs
  | reading r =>
    obtain rfl : r.port = p := by simpa [ReaderState.serves] using hs
    exact List.head?_eq_some_iff.1 h.1
  | retryWait r n =>
    obtain rfl : r.port = p := by simpa [ReaderState.serves] using hs
    exact List.head?_eq_some_iff.1 h.1

/-- The next read is that of the head. -/
def nextRead : List PortNo → ReaderState
  | [] => .idle
  | p :: _ => .reading { port := p, tryNo := 1, bytes := [] }

theorem startNextRead_reader (s : State) :
    (startNextRead s).reader = { s.reader with state := nextRead s.reader.queue } := by
  unfold startNextRead
  split <;> rename_i h <;> rw [h] <;> rfl

theorem nextRead_readsHead (queue : List PortNo) : (nextRead queue).readsHead queue := by
  cases queue with
  | nil => rfl
  | cons p rest => exact ⟨rfl, .inl rfl⟩

end Sys2Proof.Machine
end

section
/-! The reader's events keep the invariants of ports, rig and queues (R69 to R78). -/

set_option Elab.async false

namespace Sys2Proof.Machine

variable {p : PortNo} {s t u : State}

/-! ## A step of port and reader -/

/-- A change of port `p` and of the reader: the port stays sound and keeps its place with the governor, and the queue
stays in order. -/
theorem Keeps.of_reading (h : PortStep p s t) (hgood : (s.port p).Good → (t.port p).Good)
    (hgrant : (s.port p).Good → ∀ q o,
      GrantFit q o (s.port p).toGovernor (s.port p).fromGovernor (s.port p).state.holding →
        GrantFit q o (t.port p).toGovernor (t.port p).fromGovernor (t.port p).state.holding)
    (hread : (s.port p).Good → s.reader.sound = true → s.readerFits p →
      t.reader.sound = true ∧ t.readerFits p ∧
        ∀ q, q ≠ p → (q ∈ t.reader.queue ↔ q ∈ s.reader.queue) ∧
          (q ∈ s.reader.queue → s.reader.state.serves q = true → t.reader.state.serves q = true)) : Keeps s t := by
  obtain ⟨-, ⟨hc, -⟩, -, hg, hm⟩ := h.rig
  refine ⟨fun hp => ?_, rigSound_congr hg hm hc, fun hp hq => ?_⟩
  · rw [portsSound_iff] at hp ⊢
    intro q
    by_cases hqp : q = p
    · subst hqp; exact hgood (hp q)
    · rw [h.others q hqp]; exact hp q
  · rw [portsSound_iff] at hp
    rw [queuesSound_iff] at hq ⊢
    obtain ⟨hsound, hnodup, hfits, hgrants⟩ := hq
    obtain ⟨hsound', hfit', hothers⟩ := hread (hp p) hsound (hfits p)
    refine ⟨hsound', by rw [hg]; exact hnodup, fun q => ?_, fun q => ?_⟩
    · by_cases hqp : q = p
      · subst hqp; exact hfit'
      · obtain ⟨hmem, hserves⟩ := hothers q hqp
        have hfit := hfits q
        unfold State.readerFits at hfit ⊢
        rw [h.others q hqp, decide_eq_decide.2 hmem]
        exact hfit.serving fun hin => hserves (of_decide_eq_true hin)
    · have hgrantq := hgrants q
      unfold State.grantFits at hgrantq ⊢
      rw [hg]
      by_cases hqp : q = p
      · subst hqp; exact hgrant (hp q) _ _ hgrantq
      · rw [h.others q hqp]; exact hgrantq

/-! ## Plug sense -/

theorem execPlugSenseChange_keeps (p : PortNo) (seated : Bool) : Reaches (execPlugSenseChange p seated s) (Keeps s) := by
  unfold execPlugSenseChange
  split
  · exact Keeps.portChange (fun _ => rfl) fun h => ⟨h.aside, .of_mail rfl rfl⟩
  · exact Keeps.noEvent

/-- A change of port `p` alone leaves the Reader Queue as it is for every other port. -/
theorem others_of_reader (hr : t.reader = s.reader) (q : PortNo) (_ : q ≠ p) :
    (q ∈ t.reader.queue ↔ q ∈ s.reader.queue) ∧
      (q ∈ s.reader.queue → s.reader.state.serves q = true → t.reader.state.serves q = true) := by
  rw [hr]
  exact ⟨Iff.rfl, fun _ => id⟩

/-- The mail of a port that hands a join. -/
theorem joinHanded_grant (ticket : Nat) (x : Port) :
    (x.joinHanded ticket).toGovernor = x.toGovernor ∧ (x.joinHanded ticket).fromGovernor = x.fromGovernor ∧
      (x.joinHanded ticket).toReader = x.toReader ++ [.join] ∧ (x.joinHanded ticket).idResults = x.idResults ∧
      (x.joinHanded ticket).state = x.state := ⟨rfl, rfl, rfl, rfl, rfl⟩

theorem insertPlug_keeps (h : (s.port p).plugged = false) : Keeps s (insertPlug p s) := by
  have hempty : (s.port p).Good → (s.port p).state = .empty := fun hg => by
    have := hg.plugged
    rw [h] at this
    simpa [bne] using this.symm
  obtain ⟨y, hy⟩ : ∃ y, y = ({ s.port p with plugged := true, idResults := [] } : Port).entered .identifying s.cadence.beat :=
    ⟨_, rfl⟩
  have hport : (insertPlug p s).port p = y.joinHanded s.nextTicket := by
    rw [hy]; exact insertPlug_port p s
  have hmail := Port.entered_mail (x := { s.port p with plugged := true, idResults := [] }) s.cadence.beat .identifying
  rw [← hy] at hmail
  simp only [Port.mail, Prod.mk.injEq] at hmail
  obtain ⟨hto, hfrom, hreader, hresults⟩ := hmail
  have hstate : y.state = .identifying := by rw [hy]; simp
  refine .of_reading (p := p) (PortRun.refl (gives := false)).insertPlug.portStep (fun hg => ?_) (fun hg q o hf => ?_)
    fun hg hsound hf => ⟨?_, ?_, others_of_reader (PortRun.refl (gives := false)).insertPlug.reader⟩
  · rw [insertPlug_port]
    exact hg.inserted _ h _
  · rw [hempty hg] at hf
    rw [hport]
    change GrantFit q o y.toGovernor y.fromGovernor y.state.holding
    rw [hto, hfrom, hstate]
    exact hf
  · rw [(PortRun.refl (gives := false)).insertPlug.reader]; exact hsound
  · unfold State.readerFits at hf ⊢
    rw [hempty hg] at hf
    rw [(PortRun.refl (gives := false)).insertPlug.reader, hport]
    change ReaderFit _ _ (y.toReader ++ [.join]) y.idResults.length y.state.plugKind
    rw [hreader, hresults, hstate]
    exact hf.inserted

end Sys2Proof.Machine
end

section
/-! The reader's events keep the invariants, continued: removals, results, joins, withdrawals and reads. -/

set_option Elab.async false

namespace Sys2Proof.Machine

variable {p : PortNo} {s t u : State}

/-! ## Removal (R29) -/

theorem readsHead_erase {queue : List PortNo} {st : ReaderState} (h : st.readsHead queue) (hs : st.serves p = false) :
    st.readsHead (queue.erase p) := by
  have hhead : ∀ r : ReadInProgress, (r.port == p) = false → queue.head? = some r.port →
      (queue.erase p).head? = some r.port := by
    intro r hne hq
    obtain ⟨rest, rfl⟩ := List.head?_eq_some_iff.1 hq
    rw [List.erase_cons_tail (by rw [hne]; exact Bool.false_ne_true)]
    rfl
  cases st with
  | idle =>
    have hq : queue = [] := h
    rw [hq]; rfl
  | reading r => exact ⟨hhead r hs h.1, h.2⟩
  | retryWait r n => exact ⟨hhead r hs h.1, h.2⟩

theorem ne_empty_of_plugged (hg : (s.port p).Good) (h : (s.port p).plugged = true) : (s.port p).state ≠ .empty := by
  rintro hst
  have := hg.plugged
  rw [h, hst] at this
  cases this

/-- What a removal leaves of the port's agreement with the governor (R3). -/
theorem removed_grant {x : Port} {waits : Bool} {b : Word} (hst : x.state ≠ .empty) (q o : Bool)
    (h : GrantFit q o x.toGovernor x.fromGovernor x.state.holding) :
    GrantFit q o (x.removed waits b).toGovernor (x.removed waits b).fromGovernor .nothing := by
  rw [removed_eq waits b hst]
  dsimp only
  split_ifs with hq hw
  · rw [hq] at h; exact h.withdrawn
  · rw [show x.state.holding = .slot by cases hs : x.state <;> simp_all [PState.isWarming, PState.holding]] at h
    exact h.released
  · rw [show x.state.holding = .nothing by cases hs : x.state <;> simp_all [PState.isWarming, PState.holding]] at h
    rwa [List.append_nil]

theorem removed_reading {x : Port} {waits : Bool} {b : Word} (hst : x.state = .identifying) :
    (x.removed waits b).toReader =
        x.toReader.filter (· != .join) ++ (if waits || decide (.join ∈ x.toReader) then [] else [.withdrawal]) ∧
      (x.removed waits b).idResults = x.idResults := by
  have hj : x.joining = decide (ReaderMsg.join ∈ x.toReader) := by simp [Port.joining]
  rw [removed_eq waits b (by rw [hst]; decide)]
  refine ⟨?_, rfl⟩
  simp only [hst, hj]
  cases waits <;> simp

theorem removed_state {x : Port} {waits : Bool} {b : Word} (hst : x.state ≠ .empty) :
    (x.removed waits b).state = .empty := by
  rw [removed_eq waits b hst]

/-- Only a port that is being read still stands in the queue after its removal (R75, R76). -/
theorem mem_removePlug_queue (hst : (s.port p).state = .identifying) (hnodup : s.reader.queue.Nodup) :
    decide (p ∈ (removePlug p s).reader.queue) = (decide (p ∈ s.reader.queue) && s.reader.state.serves p) := by
  rw [removePlug_reader]
  by_cases hw : s.waitsForReader p = true
  · rw [if_pos ⟨hst, hw⟩]
    simp only [State.waitsForReader, Bool.and_eq_true, Bool.not_eq_true'] at hw
    rw [hw.2]
    simp [hnodup.mem_erase_iff]
  · rw [if_neg fun h => hw h.2]
    unfold State.waitsForReader at hw
    revert hw
    generalize decide (p ∈ s.reader.queue) = queued
    cases queued <;> cases s.reader.state.serves p <;> decide

/-- The removal leaves the other ports' places in the queue, and whom the reader serves. -/
theorem removePlug_queue (hsound : s.reader.sound = true) :
    (removePlug p s).reader.sound = true ∧ (removePlug p s).reader.state = s.reader.state ∧
      ∀ q, q ≠ p → (q ∈ (removePlug p s).reader.queue ↔ q ∈ s.reader.queue) := by
  obtain ⟨hnodup, hreads⟩ := (readerSound_iff _).1 hsound
  rw [removePlug_reader]
  split <;> rename_i hc
  · have hserves : s.reader.state.serves p = false := by
      have hw := hc.2
      simp only [State.waitsForReader, Bool.and_eq_true, Bool.not_eq_true'] at hw
      exact hw.2
    exact ⟨(readerSound_iff _).2 ⟨hnodup.erase p, readsHead_erase hreads hserves⟩, rfl,
      fun q hq => List.mem_erase_of_ne hq⟩
  · exact ⟨hsound, rfl, fun _ _ => Iff.rfl⟩

theorem removePlug_keeps (h : (s.port p).plugged = true) : Keeps s (removePlug p s) := by
  refine .of_reading (p := p) (PortStep.refl p s).removePlug (fun hg => ?_) (fun hg q o hf => ?_) fun hg hsound hf => ?_
  · rw [removePlug_port]
    exact hg.removed _ (ne_empty_of_plugged hg h) _
  · have hst := ne_empty_of_plugged hg h
    rw [removePlug_port, removed_state hst]
    exact removed_grant hst q o hf
  · have hst := ne_empty_of_plugged hg h
    obtain ⟨hsound', hstate, hothers⟩ := removePlug_queue (p := p) hsound
    refine ⟨hsound', ?_, fun q hq => ⟨hothers q hq, fun _ hs => by rw [hstate]; exact hs⟩⟩
    unfold State.readerFits at hf ⊢
    rw [removePlug_port, removed_state hst, hstate]
    by_cases hid : (s.port p).state = .identifying
    · obtain ⟨htoReader, hresults⟩ := removed_reading (waits := s.waitsForReader p) (b := s.cadence.beat) hid
      rw [mem_removePlug_queue hid ((readerSound_iff _).1 hsound).1, htoReader, hresults]
      rw [hid] at hf
      exact hf.removedIdentifying
    · have hknown : (s.port p).state.plugKind = .known := by
        cases hs : (s.port p).state <;> simp_all [PState.plugKind]
      rw [hknown] at hf
      rw [removePlug_reader, if_neg fun hc => hid hc.1, removed_eq _ _ hst]
      simpa [hid, PState.plugKind] using hf.removedKnown

theorem execPlugDebounceExpiry_keeps (p : PortNo) : Reaches (execPlugDebounceExpiry p s) (Keeps s) := by
  unfold execPlugDebounceExpiry
  split
  · refine Keeps.event (Keeps.atPort ?_)
    have hset : Keeps s.quiet (s.quiet.modPort p fun x => { x with plugDebounce := none }) :=
      .of_portStep ((PortStep.refl p s.quiet).modPort _) rfl fun h => by
        rw [port_modPort_self]
        exact ⟨h.aside, .of_mail rfl rfl⟩
    unfold plugDebounced
    dsimp only
    split_ifs with hin hout
    · exact hset.trans (insertPlug_keeps hin.2)
    · exact hset.trans (removePlug_keeps hout.2)
    · exact hset
  · exact Keeps.noEvent

/-! ## Results (R74) -/

/-- The identification's result taken leaves the messages as they are (R74). -/
theorem resultTaken_passes {x : Port} (hst : x.state = .identifying) (r : IdResult) (b : Word) :
    Port.Passes .nothing (x.resultTaken r b).state.holding x (x.resultTaken r b) ∧
      (x.resultTaken r b).state.plugKind = .known := by
  have hfault := fun q => Port.faultEntered_passes (x := x) b q
  rw [hst] at hfault
  unfold Port.resultTaken
  rw [if_pos hst]
  cases r with
  | valid c =>
    have hread : Port.Passes .nothing .nothing x { x with classRecord := some c } := .of_mail rfl
    exact ⟨hread.trans (Port.wentOff_passes b), Port.wentOff_known b⟩
  | plugBad => exact ⟨by rw [Port.faultEntered_state]; exact hfault .plugBad, by rw [Port.faultEntered_state]; rfl⟩
  | plugNoack => exact ⟨by rw [Port.faultEntered_state]; exact hfault .plugNoack, by rw [Port.faultEntered_state]; rfl⟩

/-- Outside IDENTIFYING a result is discarded (R74). -/
theorem resultTaken_of_ne {x : Port} (hst : x.state ≠ .identifying) (r : IdResult) (b : Word) :
    x.resultTaken r b = x := by
  unfold Port.resultTaken; rw [if_neg hst]

theorem execIdentityResult_keeps (p : PortNo) : Reaches (execIdentityResult p s) (Keeps s) := by
  unfold execIdentityResult
  split <;> rename_i hres
  · rename_i r rest
    obtain ⟨y, hy⟩ : ∃ y, y = ({ s.port p with idResults := rest } : Port) := ⟨_, rfl⟩
    have hrun : PortRun p true s.quiet
        (takeIdResult p r (s.quiet.modPort p fun x => { x with idResults := rest })) := PortRun.refl.mod.takeIdResult r
    have hport : (takeIdResult p r (s.quiet.modPort p fun x => { x with idResults := rest })).port p =
        y.resultTaken r s.cadence.beat := by
      rw [takeIdResult_port, port_modPort_self, hy]; rfl
    refine Keeps.event (Keeps.atPort (Keeps.of_reading hrun.portStep (fun hg => ?_) (fun hg q o hf => ?_)
      fun hg hsound hf => ⟨by rw [hrun.reader]; exact hsound, ?_, others_of_reader hrun.reader⟩))
    · rw [hport, hy]
      exact Port.Good.resultTaken _ (h := Port.Good.aside hg) r
    · rw [hport]
      by_cases hst : y.state = .identifying
      · refine (resultTaken_passes hst r _).1.grant q o ?_
        rw [show (s.quiet.port p).state = .identifying by rw [← hst, hy]; rfl] at hf
        rw [hy]; exact hf
      · rw [resultTaken_of_ne hst, hy]; exact hf
    · unfold State.readerFits at hf ⊢
      rw [hrun.reader, hport]
      change ReaderFit _ _ _ (s.port p).idResults.length _ at hf
      rw [hres] at hf
      by_cases hst : y.state = .identifying
      · obtain ⟨hpass, hkind⟩ := resultTaken_passes hst r s.cadence.beat
        rw [show (s.quiet.port p).state = .identifying by rw [← hst, hy]; rfl] at hf
        rw [hpass.toReader, hpass.results, hkind, hy]
        exact ReaderFit.resultTaken hf
      · rw [resultTaken_of_ne hst]
        subst hy
        refine ReaderFit.resultDropped hf fun hk => hst ?_
        change (s.port p).state.plugKind = _ at hk
        change (s.port p).state = _
        cases hs : (s.port p).state <;> simp_all [PState.plugKind]
  · exact Keeps.noEvent

/-! ## Joins and withdrawals (R69, R76) -/

theorem PortStep.startNextRead (h : PortStep p s t) : PortStep p s (startNextRead t) := by
  unfold Machine.startNextRead
  split
  · exact h.setReader _
  · exact (h.setReader _).emit _

theorem startNextRead_port (s : State) (q : PortNo) : (startNextRead s).port q = s.port q := by
  unfold startNextRead; split <;> rfl

theorem takeJoin_step : PortStep p s (takeJoin p s) := by
  have h := ((PortStep.refl p s).modPort fun x => { x with toReader := x.toReader.tail, joinTicket := 0 }).setReader
    { s.reader with queue := s.reader.queue ++ [p] }
  unfold takeJoin
  dsimp only
  split
  · exact h.startNextRead
  · exact h

theorem takeJoin_port :
    (takeJoin p s).port p = { s.port p with toReader := (s.port p).toReader.tail, joinTicket := 0 } := by
  unfold takeJoin
  dsimp only
  split
  · rw [startNextRead_port, port_setReader]; exact port_modPort_self _ _ _
  · rw [port_setReader]; exact port_modPort_self _ _ _

theorem takeJoin_reader :
    (takeJoin p s).reader =
      { queue := s.reader.queue ++ [p]
        state := if s.reader.state = .idle then nextRead (s.reader.queue ++ [p]) else s.reader.state } := by
  unfold takeJoin
  dsimp only
  split <;> rename_i hst
  · rw [if_pos (show s.reader.state = .idle from hst), startNextRead_reader]; rfl
  · rw [if_neg (show ¬s.reader.state = .idle from hst)]; rfl

/-- The queue in order with one port more at its tail. -/
theorem readsHead_append {queue : List PortNo} {st : ReaderState} (h : st.readsHead queue) (hst : st ≠ .idle)
    (l : List PortNo) : st.readsHead (queue ++ l) := by
  have hhead : ∀ r : ReadInProgress, queue.head? = some r.port → (queue ++ l).head? = some r.port := by
    intro r hq
    obtain ⟨rest, rfl⟩ := List.head?_eq_some_iff.1 hq
    rfl
  cases st with
  | idle => exact absurd rfl hst
  | reading r => exact ⟨hhead r h.1, h.2⟩
  | retryWait r n => exact ⟨hhead r h.1, h.2⟩

theorem takeJoin_keeps {rest : List ReaderMsg} (hm : (s.port p).toReader = .join :: rest) : Keeps s (takeJoin p s) := by
  refine .of_reading takeJoin_step (fun hg => ?_) (fun hg q o hf => ?_) fun hg hsound hf => ?_
  · rw [takeJoin_port]; exact hg.aside
  · rw [takeJoin_port]; exact hf
  · obtain ⟨hnodup, hreads⟩ := (readerSound_iff _).1 hsound
    unfold State.readerFits at hf ⊢
    rw [hm] at hf
    have hnot : p ∉ s.reader.queue := of_decide_eq_false (hf.joined (serves' := true)).1
    rw [takeJoin_port, takeJoin_reader]
    refine ⟨(readerSound_iff _).2 ⟨?_, ?_⟩, ?_, fun q hq => ⟨by simp [hq], fun hin hs => ?_⟩⟩
    · exact List.nodup_append.2 ⟨hnodup, List.nodup_singleton p, by
        rintro a ha b hb rfl
        rw [List.mem_singleton] at hb
        exact hnot (hb ▸ ha)⟩
    · dsimp only
      split <;> rename_i hst
      · exact nextRead_readsHead _
      · exact readsHead_append hreads hst _
    · have hfit := (hf.joined (serves' := (if s.reader.state = .idle then nextRead (s.reader.queue ++ [p])
        else s.reader.state).serves p)).2
      simpa [hm] using hfit
    · have hst : s.reader.state ≠ .idle := fun hi => by rw [hi] at hs; cases hs
      simp only [if_neg hst]
      exact hs

theorem execReaderJoin_keeps (p : PortNo) : Reaches (execReaderJoin p s) (Keeps s) := by
  unfold execReaderJoin
  split <;> rename_i hc
  · obtain ⟨rest, hm⟩ := List.head?_eq_some_iff.1 hc.1
    exact Keeps.event (takeJoin_keeps (s := s.quiet) hm)
  · exact Keeps.noEvent

end Sys2Proof.Machine
end

section
/-! The reader's events keep the invariants, continued: withdrawals, reads and retries. -/

set_option Elab.async false

namespace Sys2Proof.Machine

variable {p : PortNo} {s t u : State}

/-! ## Withdrawals (R76) -/

theorem takeReaderWithdrawal_step : PortStep p s (takeReaderWithdrawal p s) := by
  have h := ((PortStep.refl p s).modPort fun x => { x with toReader := x.toReader.tail }).setReader
    { s.reader with queue := s.reader.queue.erase p }
  unfold takeReaderWithdrawal
  dsimp only
  split
  · exact h
  · split
    · exact (h.emit _).startNextRead
    · exact h
  · split
    · exact h.startNextRead
    · exact h

theorem takeReaderWithdrawal_port :
    (takeReaderWithdrawal p s).port p = { s.port p with toReader := (s.port p).toReader.tail } := by
  have h := port_modPort_self s p fun x => { x with toReader := x.toReader.tail }
  unfold takeReaderWithdrawal
  dsimp only
  split
  · exact h
  · split
    · rw [startNextRead_port, port_emit]; exact h
    · exact h
  · split
    · rw [startNextRead_port]; exact h
    · exact h

theorem takeReaderWithdrawal_reader :
    (takeReaderWithdrawal p s).reader =
      { queue := s.reader.queue.erase p
        state := if s.reader.state.serves p then nextRead (s.reader.queue.erase p) else s.reader.state } := by
  have hkept : ∀ st : ReaderState, s.reader.state = st → ({ s.reader with queue := s.reader.queue.erase p } : Reader) =
      { queue := s.reader.queue.erase p, state := st } := fun st h => by rw [← h]
  unfold takeReaderWithdrawal
  dsimp only
  split <;> rename_i hst <;> change s.reader.state = _ at hst <;> rw [hst]
  · exact hkept _ hst
  · split <;> rename_i hr
    · rw [startNextRead_reader, if_pos (by simpa [ReaderState.serves] using hr)]; rfl
    · rw [if_neg (by simpa [ReaderState.serves] using hr)]; exact hkept _ hst
  · split <;> rename_i hr
    · rw [startNextRead_reader, if_pos (by simpa [ReaderState.serves] using hr)]; rfl
    · rw [if_neg (by simpa [ReaderState.serves] using hr)]; exact hkept _ hst

/-- The reader serves one port at a time. -/
theorem serves_unique {st : ReaderState} {p q : PortNo} (hp : st.serves p = true) (hq : st.serves q = true) : q = p := by
  cases st <;> simp_all [ReaderState.serves]

theorem takeReaderWithdrawal_keeps {rest : List ReaderMsg} (hm : (s.port p).toReader = .withdrawal :: rest) :
    Keeps s (takeReaderWithdrawal p s) := by
  refine .of_reading takeReaderWithdrawal_step (fun hg => ?_) (fun hg q o hf => ?_) fun hg hsound hf => ?_
  · rw [takeReaderWithdrawal_port]; exact hg.aside
  · rw [takeReaderWithdrawal_port]; exact hf
  · obtain ⟨hnodup, hreads⟩ := (readerSound_iff _).1 hsound
    unfold State.readerFits at hf ⊢
    rw [hm] at hf
    rw [takeReaderWithdrawal_port, takeReaderWithdrawal_reader]
    refine ⟨(readerSound_iff _).2 ⟨hnodup.erase p, ?_⟩, ?_, fun q hq => ⟨List.mem_erase_of_ne hq, fun _ hs => ?_⟩⟩
    · dsimp only
      split <;> rename_i hserves
      · exact nextRead_readsHead _
      · exact readsHead_erase hreads (by simpa using hserves)
    · have hfit := (hf.withdrawn (serves' := (if s.reader.state.serves p then nextRead (s.reader.queue.erase p)
        else s.reader.state).serves p)).2
      have hnot : p ∉ s.reader.queue.erase p := fun hin => ((List.Nodup.mem_erase_iff hnodup).1 hin).1 rfl
      rw [hm]
      simpa only [decide_eq_false hnot, List.tail_cons] using hfit
    · have hserves : ¬s.reader.state.serves p = true := fun hp => hq (serves_unique hp hs)
      simp only [if_neg hserves]
      exact hs

theorem execReaderWithdrawal_keeps (p : PortNo) : Reaches (execReaderWithdrawal p s) (Keeps s) := by
  unfold execReaderWithdrawal
  split <;> rename_i hc
  · obtain ⟨rest, hm⟩ := List.head?_eq_some_iff.1 hc
    exact Keeps.event (takeReaderWithdrawal_keeps (s := s.quiet) hm)
  · exact Keeps.noEvent

/-! ## Reads (R70 to R74) -/

/-- The port that a result reaches, if it is one of the identification under way (R76). -/
def Port.resultHanded (r : IdResult) (x : Port) : Port :=
  { x with idResults := if x.readIsPast then x.idResults else x.idResults ++ [r] }

theorem deliverResult_step (r : IdResult) : PortStep p s (deliverResult p r s) :=
  (((PortStep.refl p s).modPort _).setReader _).startNextRead

theorem deliverResult_port (r : IdResult) : (deliverResult p r s).port p = (s.port p).resultHanded r := by
  unfold deliverResult
  dsimp only
  rw [startNextRead_port, port_setReader, port_modPort_self]
  rfl

theorem deliverResult_reader (r : IdResult) :
    (deliverResult p r s).reader = { queue := s.reader.queue.tail, state := nextRead s.reader.queue.tail } := by
  unfold deliverResult
  dsimp only
  rw [startNextRead_reader]
  rfl

theorem resultHanded_length (r : IdResult) (x : Port) :
    (x.resultHanded r).idResults.length =
      if x.state.plugKind = .identifying ∧ .withdrawal ∈ x.toReader then x.idResults.length
      else x.idResults.length + 1 := by
  have hpast : x.readIsPast = true ↔ x.state.plugKind = .identifying ∧ .withdrawal ∈ x.toReader := by
    unfold Port.readIsPast
    cases hs : x.state <;> simp [PState.plugKind]
  unfold Port.resultHanded
  simp only [hpast]
  split <;> simp

theorem deliverResult_keeps (r : IdResult) (hs : s.reader.state.serves p = true) : Keeps s (deliverResult p r s) := by
  refine .of_reading (deliverResult_step r) (fun hg => ?_) (fun hg q o hf => ?_) fun hg hsound hf => ?_
  · rw [deliverResult_port]; exact hg.aside
  · rw [deliverResult_port]; exact hf
  · obtain ⟨hnodup, hreads⟩ := (readerSound_iff _).1 hsound
    obtain ⟨rest, hq⟩ := head_of_serves hreads hs
    unfold State.readerFits at hf ⊢
    rw [hq] at hnodup
    have hnot : p ∉ rest := (List.nodup_cons.1 hnodup).1
    rw [deliverResult_port, deliverResult_reader, resultHanded_length, hq]
    refine ⟨(readerSound_iff _).2 ⟨(List.nodup_cons.1 hnodup).2, nextRead_readsHead _⟩, ?_, fun q hqp =>
      ⟨by simp [hqp], fun _ hsq => absurd (serves_unique hs hsq) hqp⟩⟩
    rw [hq, decide_eq_true (List.mem_cons_self ..)] at hf
    rw [List.tail_cons, decide_eq_false hnot]
    exact hf.delivered

/-- Another try, or the wait for it, of the read in progress. -/
theorem reading_keeps {st : ReaderState} (hserves : ∀ q, st.serves q = s.reader.state.serves q)
    (hreads : s.reader.state.readsHead s.reader.queue → st.readsHead s.reader.queue) :
    Keeps s (s.setReader { s.reader with state := st }) := by
  refine .of_reading (p := 0) ((PortStep.refl 0 s).setReader _) id (fun _ _ _ => id) fun hg hsound hf => ⟨?_, ?_, ?_⟩
  · obtain ⟨hnodup, hhead⟩ := (readerSound_iff _).1 hsound
    exact (readerSound_iff _).2 ⟨hnodup, hreads hhead⟩
  · exact hf.serving fun _ h => (hserves 0).trans h
  · exact fun q _ => ⟨Iff.rfl, fun _ h => (hserves q).trans h⟩

theorem emit_keeps (a : List WireAct) : Keeps s (s.emit a) := .of_same rfl rfl rfl rfl rfl

theorem execTryEnd_keeps (r : TryResult) : Reaches (execTryEnd r s) (Keeps s) := by
  unfold execTryEnd
  split <;> rename_i hst
  · rename_i x
    have hserves : s.reader.state.serves x.port = true := by rw [hst]; simp [ReaderState.serves]
    refine Keeps.event ((emit_keeps (tryEndActs r)).trans ?_)
    unfold endTry
    dsimp only
    split
    · exact deliverResult_keeps _ hserves
    · split <;> rename_i htry
      · refine reading_keeps (fun q => ?_) fun hhead => ?_
        · change _ = s.reader.state.serves q
          rw [hst]; rfl
        · change s.reader.state.readsHead s.reader.queue at hhead
          rw [hst] at hhead
          exact ⟨hhead.1, htry⟩
      · exact deliverResult_keeps _ hserves
  · exact Keeps.noEvent

theorem execPlugReadRetryExpiry_keeps : Reaches (execPlugReadRetryExpiry s) (Keeps s) := by
  unfold execPlugReadRetryExpiry
  split <;> rename_i hst
  · rename_i x
    refine Keeps.event (Keeps.trans (t := s.quiet.setReader
      { s.quiet.reader with state := .reading { x with tryNo := 2, bytes := [] } }) ?_ (emit_keeps _))
    refine reading_keeps (fun q => ?_) fun hhead => ?_
    · change _ = s.reader.state.serves q
      rw [hst]; rfl
    · change s.reader.state.readsHead s.reader.queue at hhead
      rw [hst] at hhead
      exact ⟨hhead.1, .inr rfl⟩
  · exact Keeps.noEvent

end Sys2Proof.Machine
end

section
/-! The governor's events keep the invariants of ports, rig and queues (R94 to R107). -/

set_option Elab.async false

namespace Sys2Proof.Machine

variable {p : PortNo} {s t u : State}

/-! ## One port's messages taken -/

namespace GrantFit

variable {q o : Bool} {m : List GovMsg} {f : List PortMsg} {k : Holding}

theorem claimTaken (h : GrantFit q o (.claim :: m) f k) : GrantFit (q || !o) o m f k where
  one := by have := h.one; cases q <;> cases o <;> simp_all
  slots := by simpa [returnsIn] using h.slots
  claims := h.claims

theorem withdrawalTaken (h : GrantFit q o (.withdrawal :: m) f k) : GrantFit false o m f k where
  one := rfl
  slots := by simpa [returnsIn] using h.slots
  claims := h.claims

/-- A release or a returned grant is taken: its port holds a slot (R98, R102). -/
theorem releaseTaken {a : GovMsg} (ha : a = .release ∨ a = .returnedGrant) (h : GrantFit q o (a :: m) f k) :
    o = true ∧ GrantFit q false m f k := by
  have hslots := h.slots
  have hreturns : returnsIn (a :: m) = returnsIn m + 1 := by
    rcases ha with rfl | rfl <;> simp [returnsIn] <;> omega
  rw [hreturns] at hslots
  have ho : o = true := by
    cases o
    · simp at hslots
    · rfl
  refine ⟨ho, ⟨by cases q <;> rfl, ?_, ?_⟩⟩
  · rw [ho, Bool.toNat_true] at hslots
    rw [Bool.toNat_false]
    omega
  · have hclaims := h.claims
    rcases ha with rfl | rfl <;> exact hclaims

/-- With no slot given back, a slot holder's claims join nothing (R96; log entry 35). -/
theorem foldl_taken_holder (hm : returnsIn m = 0) : (m.foldl GovMsg.taken (false, true)).1 = false := by
  induction m with
  | nil => rfl
  | cons a m ih =>
    have hrest : returnsIn m = 0 := by simp [returnsIn, List.count_cons] at hm ⊢; omega
    cases a with
    | claim => exact ih hrest
    | withdrawal => exact ih hrest
    | release => simp [returnsIn] at hm
    | returnedGrant => simp [returnsIn] at hm

/-- The head claim is served (R100). -/
theorem served (h : GrantFit true o m f k) : o = false ∧ GrantFit false true m (f ++ [.grant]) k := by
  have ho : o = false := by simpa using h.one
  have hslots := h.slots
  rw [ho] at hslots
  simp at hslots
  obtain ⟨⟨hf, hk⟩, hm⟩ := hslots
  refine ⟨ho, ⟨rfl, ?_, ?_⟩⟩
  · simp [hf, hk, hm]
  · rw [foldl_taken_holder hm]
    simp

/-- A trip cut is handed (R106). -/
theorem cutHanded (h : GrantFit q o m f k) : GrantFit q o m (f ++ [.tripCut]) k where
  one := h.one
  slots := by simpa using h.slots
  claims := by simpa using h.claims

end GrantFit

/-! ## Steps of the governor -/

/-- Nothing of a port changes but its messages to and from the governor. -/
def MailOnly (s t : State) : Prop :=
  ∀ q, ∃ m f, t.port q = { s.port q with toGovernor := m, fromGovernor := f }

theorem mailOnly_of_ports (h : t.ports = s.ports) : MailOnly s t :=
  fun q => ⟨(s.port q).toGovernor, (s.port q).fromGovernor, port_congr h q⟩

/-- A change of the governor and of messages to and from it. -/
theorem Keeps.of_governing (hports : MailOnly s t) (hr : t.reader = s.reader) (hm : t.monitor = s.monitor)
    (hc : t.cadence = s.cadence) (hg : s.governor.sound = true → t.governor.sound = true)
    (hgrant : s.governor.queue.Nodup → (∀ q, s.grantFits q) → t.governor.queue.Nodup ∧ ∀ q, t.grantFits q) :
    Keeps s t := by
  refine ⟨fun hp => ?_, fun h => ?_, fun hp hq => ?_⟩
  · rw [portsSound_iff] at hp ⊢
    intro q
    obtain ⟨m, f, hq⟩ := hports q
    rw [hq]
    exact (hp q).aside
  · unfold State.rigSound at h ⊢
    simp only [Bool.and_eq_true] at h ⊢
    rw [hm, hc]
    exact ⟨⟨hg h.1.1, h.1.2⟩, h.2⟩
  · rw [queuesSound_iff] at hq ⊢
    obtain ⟨hsound, hnodup, hfits, hgrants⟩ := hq
    obtain ⟨hnodup', hgrants'⟩ := hgrant hnodup hgrants
    refine ⟨by rw [hr]; exact hsound, hnodup', fun q => ?_, hgrants'⟩
    obtain ⟨m, f, hq⟩ := hports q
    unfold State.readerFits
    rw [hr, hq]
    exact hfits q

/-- Port `p`'s agreement with the governor after a change of it, the other ports' being as it was. -/
theorem grantFits_of {m : List GovMsg} {f : List PortMsg} {g : Governor} (h : ∀ q, s.grantFits q)
    (ht : ∀ q, t.port q = if q = p then { s.port q with toGovernor := m, fromGovernor := f } else s.port q)
    (hg : t.governor = g) (hothers : ∀ q, q ≠ p → (q ∈ g.queue ↔ q ∈ s.governor.queue) ∧
      g.holders.get q = s.governor.holders.get q)
    (hp : GrantFit (decide (p ∈ s.governor.queue)) (s.governor.holders.get p) (s.port p).toGovernor
        (s.port p).fromGovernor (s.port p).state.holding →
      GrantFit (decide (p ∈ g.queue)) (g.holders.get p) m f (s.port p).state.holding) (q : PortNo) :
    t.grantFits q := by
  have hq := h q
  unfold State.grantFits at hq ⊢
  rw [ht q, hg]
  by_cases hqp : q = p
  · subst hqp
    rw [if_pos rfl]
    exact hp hq
  · obtain ⟨hmem, hheld⟩ := hothers q hqp
    rw [if_neg hqp, decide_eq_decide.2 hmem, hheld]
    exact hq

/-! ## The governor's limits (R98, R99) -/

/-- The deadline of the holdoff is in range. -/
def GovState.inRange : GovState → Prop
  | .opened => True
  | .holdoff d => d ≤ 5000

theorem governorSound_iff (g : Governor) :
    g.sound = true ↔ g.settings.sound = true ∧ g.slotsHeld ≤ g.settings.bootCap ∧ g.history.length ≤ 4 ∧
      (∀ d ∈ g.history, d ≤ 1000) ∧ g.state.inRange := by
  unfold Governor.sound
  cases g.state <;> simp [GovState.inRange, and_assoc]

theorem settingsSound_limits {r : RigSettings} (h : r.sound = true) :
    r.grantLimit ≤ 4 ∧ r.windowMs ≤ 1000 ∧ r.holdoffMs ≤ 5000 := by
  simp [RigSettings.sound, inRange] at h
  omega

theorem count_set_false (l : List Bool) (i : Nat) : (l.set i false).count true ≤ l.count true := by
  induction l generalizing i with
  | nil => simp
  | cons b l ih =>
    cases i with
    | zero => cases b <;> simp
    | succ i =>
      have := ih i
      cases b <;> simp <;> omega

/-! ## Serving (R100, R101) -/

theorem serveHead_keeps {rest : List PortNo} (hq : s.governor.queue = p :: rest)
    (hc : s.governor.canServe = true) : Keeps s (serveHead p rest s) := by
  have hport : ∀ q, (serveHead p rest s).port q =
      if q = p then { s.port q with toGovernor := (s.port p).toGovernor, fromGovernor := (s.port p).fromGovernor ++ [.grant] }
      else s.port q := by
    intro q
    by_cases hqp : q = p
    · subst hqp; rw [if_pos rfl]; exact port_modPort_self _ _ _
    · rw [if_neg hqp]; exact port_modPort_ne _ _ hqp
  refine .of_governing (fun q => ?_) rfl rfl rfl (fun hg => ?_) fun hnodup hfits => ?_
  · rw [hport q]
    split
    · exact ⟨_, _, rfl⟩
    · exact ⟨(s.port q).toGovernor, (s.port q).fromGovernor, rfl⟩
  · obtain ⟨hset, hheld, hlen, hhist, hst⟩ := (governorSound_iff _).1 hg
    obtain ⟨hlimit, hwindow, -⟩ := settingsSound_limits hset
    simp only [Governor.canServe, Bool.and_eq_true, decide_eq_true_eq] at hc
    obtain ⟨⟨-, hslots⟩, hgrants⟩ := hc
    refine (governorSound_iff _).2 ⟨hset, ?_, ?_, ?_, hst⟩
    · exact (count_set_true _ _).trans hslots
    · change (s.governor.history ++ [_]).length ≤ 4
      rw [List.length_append, List.length_singleton]
      omega
    · intro d hd
      rcases List.mem_append.1 hd with h | h
      · exact hhist d h
      · rw [List.mem_singleton] at h; rw [h]; exact hwindow
  · rw [hq] at hnodup
    have hnot : p ∉ rest := (List.nodup_cons.1 hnodup).1
    refine ⟨(List.nodup_cons.1 hnodup).2, grantFits_of (g := { s.governor with
      queue := rest
      holders := s.governor.holders.set p true
      history := s.governor.history ++ [s.governor.settings.windowMs] }) hfits hport rfl (fun q hqp => ⟨?_, ?_⟩) fun hp => ?_⟩
    · rw [hq]; simp [hqp]
    · exact Table.get_set_ne _ _ hqp
    · rw [hq, decide_eq_true (List.mem_cons_self ..)] at hp
      rw [Table.get_set_self, decide_eq_false hnot]
      exact hp.served.2

theorem serveUpTo_keeps (n : Nat) (s : State) : Keeps s (serveUpTo n s) := by
  induction n generalizing s with
  | zero => exact .refl s
  | succ n ih =>
    unfold serveUpTo
    split
    · exact .refl s
    · split
      · exact (serveHead_keeps ‹_› ‹_›).trans (ih _)
      · exact .refl s

theorem servingCheck_keeps (s : State) : Keeps s (servingCheck s) := serveUpTo_keeps _ s

theorem post_keeps (x : Slot) : Keeps s (s.post x) := .of_same (by simp) (by simp) (by simp) (by simp) (by simp)

/-! ## Messages taken -/

/-- Port `p` with its oldest message to the governor taken, and the governor changed. -/
def tookMessage (p : PortNo) (g : Governor) (s : State) : State := (takeMessage p s).setGovernor g

theorem tookMessage_port (g : Governor) (q : PortNo) :
    (tookMessage p g s).port q =
      if q = p then { s.port q with toGovernor := (s.port p).toGovernor.tail, fromGovernor := (s.port p).fromGovernor }
      else s.port q := by
  rw [tookMessage, port_setGovernor, takeMessage]
  by_cases hqp : q = p
  · subst hqp; rw [if_pos rfl]; exact port_modPort_self _ _ _
  · rw [if_neg hqp]; exact port_modPort_ne _ _ hqp

theorem tookMessage_keeps {a : GovMsg} {m : List GovMsg} {g : Governor} (hm : (s.port p).toGovernor = a :: m)
    (hsound : s.governor.sound = true → g.sound = true) (hnodup : s.governor.queue.Nodup → g.queue.Nodup)
    (hothers : ∀ q, q ≠ p → (q ∈ g.queue ↔ q ∈ s.governor.queue) ∧
      g.holders.get q = s.governor.holders.get q)
    (hp : s.governor.queue.Nodup → ∀ f k,
      GrantFit (decide (p ∈ s.governor.queue)) (s.governor.holders.get p) (a :: m) f k →
        GrantFit (decide (p ∈ g.queue)) (g.holders.get p) m f k) : Keeps s (tookMessage p g s) := by
  refine .of_governing (fun q => ?_) rfl rfl rfl hsound fun hq hfits =>
    ⟨hnodup hq, grantFits_of hfits (tookMessage_port g) rfl hothers fun h => ?_⟩
  · rw [tookMessage_port]
    split
    · exact ⟨_, _, rfl⟩
    · exact ⟨(s.port q).toGovernor, (s.port q).fromGovernor, rfl⟩
  · rw [hm] at h ⊢
    exact hp hq _ _ h

/-- What is taken of a port's agreement once its message is gone. -/
theorem tookMessage_same (p : PortNo) (s : State) : takeMessage p s = tookMessage p s.governor s := rfl

theorem takeClaim_keeps {m : List GovMsg} (hm : (s.port p).toGovernor = .claim :: m) : Keeps s (takeClaim p s) := by
  unfold takeClaim
  dsimp only
  split <;> rename_i hc
  · rw [tookMessage_same]
    refine tookMessage_keeps hm id id (fun _ _ => ⟨Iff.rfl, rfl⟩) fun _ f k hf => ?_
    have hf := hf.claimTaken
    rwa [show (decide (p ∈ s.governor.queue) || !s.governor.holders.get p) = decide (p ∈ s.governor.queue) from ?_] at hf
    have hone := hf.one
    rcases hc with hq | hh
    · rw [decide_eq_true (show p ∈ s.governor.queue from hq)]; rfl
    · rw [show s.governor.holders.get p = true from hh]; simp
  · obtain ⟨hq, hh⟩ : p ∉ s.governor.queue ∧ s.governor.holders.get p = false := by
      simpa [not_or] using (show ¬(p ∈ s.governor.queue ∨ s.governor.holders.get p = true) from hc)
    refine Keeps.trans ?_ ((post_keeps .governor).trans (servingCheck_keeps _))
    refine tookMessage_keeps (g := { s.governor with queue := s.governor.queue ++ [p] }) hm id (fun hnodup => ?_)
      (fun q hqp => ⟨by simp [hqp], rfl⟩) fun _ f k hf => ?_
    · exact List.nodup_append.2 ⟨hnodup, List.nodup_singleton p, by
        rintro a ha b hb rfl
        rw [List.mem_singleton] at hb
        exact hq (hb ▸ ha)⟩
    · have hf := hf.claimTaken
      rw [decide_eq_false hq, hh] at hf
      simpa [hh] using hf

theorem takeWithdrawal_keeps {m : List GovMsg} (hm : (s.port p).toGovernor = .withdrawal :: m) :
    Keeps s (takeWithdrawal p s) := by
  unfold takeWithdrawal
  dsimp only
  split <;> rename_i hq
  · refine Keeps.trans ?_ (post_keeps .governor)
    refine tookMessage_keeps (g := { s.governor with queue := s.governor.queue.erase p }) hm id
      (fun hnodup => hnodup.erase p) (fun q hqp => ⟨List.mem_erase_of_ne hqp, rfl⟩) fun hnodup f k hf => ?_
    have hnot : p ∉ s.governor.queue.erase p := fun hin => ((List.Nodup.mem_erase_iff hnodup).1 hin).1 rfl
    rw [decide_eq_false hnot]
    exact hf.withdrawalTaken
  · rw [tookMessage_same]
    refine tookMessage_keeps hm id id (fun _ _ => ⟨Iff.rfl, rfl⟩) fun _ f k hf => ?_
    rw [decide_eq_false (show p ∉ s.governor.queue from hq)]
    exact hf.withdrawalTaken

theorem takeRelease_keeps {a : GovMsg} {m : List GovMsg} (ha : a = .release ∨ a = .returnedGrant)
    (hm : (s.port p).toGovernor = a :: m) : Keeps s (takeRelease p s) := by
  unfold takeRelease
  dsimp only
  split <;> rename_i hh
  · refine Keeps.trans ?_ ((post_keeps .governor).trans (servingCheck_keeps _))
    refine tookMessage_keeps (g := { s.governor with holders := s.governor.holders.set p false }) hm (fun hg => ?_) id
      (fun q hqp => ⟨Iff.rfl, Table.get_set_ne _ _ hqp⟩) fun _ f k hf => ?_
    · obtain ⟨hset, hheld, hrest⟩ := (governorSound_iff _).1 hg
      exact (governorSound_iff _).2 ⟨hset, (count_set_false _ _).trans hheld, hrest⟩
    · rw [Table.get_set_self]
      exact (hf.releaseTaken ha).2
  · rw [tookMessage_same]
    refine tookMessage_keeps hm id id (fun _ _ => ⟨Iff.rfl, rfl⟩) fun _ f k hf => ?_
    exact absurd (hf.releaseTaken ha).1 hh

theorem execClaim_keeps (p : PortNo) : Reaches (execClaim p s) (Keeps s) := by
  unfold execClaim
  split <;> rename_i hc
  · obtain ⟨m, hm⟩ := List.head?_eq_some_iff.1 hc
    exact Keeps.event (takeClaim_keeps (s := s.quiet) hm)
  · exact Keeps.noEvent

theorem execWithdrawal_keeps (p : PortNo) : Reaches (execWithdrawal p s) (Keeps s) := by
  unfold execWithdrawal
  split <;> rename_i hc
  · obtain ⟨m, hm⟩ := List.head?_eq_some_iff.1 hc
    exact Keeps.event (takeWithdrawal_keeps (s := s.quiet) hm)
  · exact Keeps.noEvent

theorem execRelease_keeps (p : PortNo) : Reaches (execRelease p s) (Keeps s) := by
  unfold execRelease
  split <;> rename_i hc
  · obtain ⟨m, hm⟩ := List.head?_eq_some_iff.1 hc
    exact Keeps.event (takeRelease_keeps (s := s.quiet) (.inl rfl) hm)
  · exact Keeps.noEvent

theorem execReturnedGrant_keeps (p : PortNo) : Reaches (execReturnedGrant p s) (Keeps s) := by
  unfold execReturnedGrant
  split <;> rename_i hc
  · obtain ⟨m, hm⟩ := List.head?_eq_some_iff.1 hc
    exact Keeps.event (takeRelease_keeps (s := s.quiet) (.inr rfl) hm)
  · exact Keeps.noEvent

end Sys2Proof.Machine
end

section
/-! The supply, the tick and the beat keep the invariants of ports, rig and queues (R37 to R42, R99, R104 to R107). -/

set_option Elab.async false

namespace Sys2Proof.Machine

variable {p : PortNo} {s t u : State}

/-! ## Governor and monitor alone -/

/-- The governor changed, its queue and its slots as they were. -/
theorem governed_keeps {g : Governor} (hq : g.queue = s.governor.queue) (hh : g.holders = s.governor.holders)
    (hg : s.governor.sound = true → g.sound = true) : Keeps s (s.setGovernor g) := by
  refine .of_governing (mailOnly_of_ports rfl) rfl rfl rfl hg fun hnodup hfits => ⟨?_, fun q => ?_⟩
  · change g.queue.Nodup
    rw [hq]; exact hnodup
  · have := hfits q
    unfold State.grantFits at this ⊢
    rw [port_setGovernor, setGovernor_governor, hq, hh]
    exact this

theorem rigSound_iff (s : State) :
    s.rigSound = true ↔ s.governor.sound = true ∧ s.monitor.sound = true ∧ s.cadence.sound = true := by
  unfold State.rigSound; rw [Bool.and_eq_true, Bool.and_eq_true, and_assoc]

/-- A change that leaves ports, reader and governor alone. -/
theorem Keeps.of_rig (hp : t.ports = s.ports) (hr : t.reader = s.reader) (hg : t.governor = s.governor)
    (hrig : s.rigSound = true → t.rigSound = true) : Keeps s t :=
  .of_ports (fun p h => by rw [port_congr hp]; exact ⟨h, .of_mail rfl rfl⟩) hr hg hrig

theorem monitored_keeps {m : Monitor} (hm : s.monitor.sound = true → m.sound = true) : Keeps s (s.setMonitor m) :=
  .of_rig rfl rfl rfl fun h => by
    rw [rigSound_iff] at h ⊢
    exact ⟨h.1, hm h.2.1, h.2.2⟩

theorem cadenced_keeps {c : Cadence} (hc : s.cadence.sound = true → c.sound = true) :
    Keeps s { s with cadence := c } :=
  .of_rig rfl rfl rfl fun h => by
    rw [rigSound_iff] at h ⊢
    exact ⟨h.1, h.2.1, hc h.2.2⟩

/-! ## History, trips and holdoff -/

theorem expireHistory_keeps (i : Nat) : Keeps s (expireHistory i s) := by
  unfold expireHistory
  refine Keeps.trans (governed_keeps (g := { s.governor with history := s.governor.history.eraseIdx i }) rfl rfl
    fun hg => ?_) ((post_keeps .governor).trans (servingCheck_keeps _))
  obtain ⟨hset, hheld, hlen, hhist, hst⟩ := (governorSound_iff _).1 hg
  exact (governorSound_iff _).2 ⟨hset, hheld, (List.length_eraseIdx_le _ _).trans hlen,
    fun d hd => hhist d (List.mem_of_mem_eraseIdx hd), hst⟩

theorem execGrantHistoryExpiry_keeps (i : Fin 4) : Reaches (execGrantHistoryExpiry i s) (Keeps s) := by
  unfold execGrantHistoryExpiry
  split
  · exact Keeps.event (expireHistory_keeps _)
  · exact Keeps.noEvent

/-- The governor in another state. -/
theorem stated_keeps {st : GovState} (h : s.governor.settings.sound = true → st.inRange) :
    Keeps s (s.setGovernor { s.governor with state := st }) :=
  governed_keeps rfl rfl fun hg => by
    obtain ⟨hset, hheld, hlen, hhist, -⟩ := (governorSound_iff _).1 hg
    exact (governorSound_iff _).2 ⟨hset, hheld, hlen, hhist, h hset⟩

theorem execHoldoffExpiry_keeps : Reaches (execHoldoffExpiry s) (Keeps s) := by
  unfold execHoldoffExpiry
  split
  · exact Keeps.event ((stated_keeps (st := .opened) fun _ => trivial).trans ((post_keeps .governor).trans (servingCheck_keeps _)))
  · exact Keeps.noEvent

theorem tellCut_keeps (p : PortNo) (s : State) : Keeps s (s.tellPort p .tripCut) := by
  have hport : ∀ q, (s.tellPort p .tripCut).port q =
      if q = p then
        { s.port q with toGovernor := (s.port p).toGovernor, fromGovernor := (s.port p).fromGovernor ++ [.tripCut] }
      else s.port q := by
    intro q
    rw [State.tellPort]
    by_cases hqp : q = p
    · subst hqp; rw [if_pos rfl]; exact port_modPort_self _ _ _
    · rw [if_neg hqp]; exact port_modPort_ne _ _ hqp
  refine .of_governing (fun q => ?_) rfl rfl rfl id fun hnodup hfits =>
    ⟨hnodup, grantFits_of hfits hport rfl (fun _ _ => ⟨Iff.rfl, rfl⟩) fun h => h.cutHanded⟩
  rw [hport q]
  split
  · exact ⟨_, _, rfl⟩
  · exact ⟨(s.port q).toGovernor, (s.port q).fromGovernor, rfl⟩

theorem handCuts_keeps (ps : List PortNo) (s : State) : Keeps s (handCuts ps s) := by
  induction ps generalizing s with
  | nil => exact .refl s
  | cons p rest ih =>
    unfold handCuts
    split
    · exact (tellCut_keeps p s).trans (ih _)
    · exact ih s

/-- The governor in HOLDOFF, and posted. -/
theorem heldOff_keeps (s : State) :
    Keeps s ((s.setGovernor { s.governor with state := .holdoff s.governor.settings.holdoffMs }).post .governor) :=
  (stated_keeps (st := .holdoff s.governor.settings.holdoffMs) fun h => (settingsSound_limits h).2.2).trans
    (post_keeps .governor)

/-- Trip cuts handed to the ports of a list, then the holdoff. -/
theorem cutsHanded_keeps (ps : List PortNo) {m : Monitor} (hm : s.monitor.sound = true → m.sound = true) :
    Keeps s (((handCuts ps (s.setMonitor m)).setGovernor
      { (handCuts ps (s.setMonitor m)).governor with
        state := .holdoff (handCuts ps (s.setMonitor m)).governor.settings.holdoffMs }).post .governor) :=
  ((monitored_keeps hm).trans (handCuts_keeps ps _)).trans (heldOff_keeps _)

theorem takeTrip_keeps (s : State) : Keeps s (takeTrip s) := by
  unfold takeTrip
  generalize allPorts = ps
  exact cutsHanded_keeps ps (m := { s.monitor with tripsHanded := s.monitor.tripsHanded - 1 }) id

theorem execTrip_keeps : Reaches (execTrip s) (Keeps s) := by
  unfold execTrip
  split
  · exact Keeps.event (takeTrip_keeps _)
  · exact Keeps.noEvent

/-! ## The supply (R104, R105) -/

theorem raise_keeps (c : Cause) : Keeps s (s.raise c) := .of_same rfl rfl rfl rfl rfl

theorem compareSupply_keeps (s : State) : Keeps s (compareSupply s) := by
  have hmon : ∀ st n, Keeps s (s.setMonitor { s.monitor with state := st, tripsHanded := n }) :=
    fun _ _ => monitored_keeps id
  unfold compareSupply
  dsimp only
  split
  · split
    · exact (hmon .tripped (s.monitor.tripsHanded + 1)).trans (raise_keeps _)
    · exact .refl s
  · split
    · exact hmon .armed s.monitor.tripsHanded
    · exact .refl s

theorem supplyMoves_keeps (mv : Nat) : Keeps s (supplyMoves mv s) := by
  have hmon : Keeps s (s.setMonitor { s.monitor with supply := mv }) := monitored_keeps id
  exact hmon.trans (compareSupply_keeps _)

theorem execTripLevelChange_keeps : Reaches (execTripLevelChange s) (Keeps s) := by
  unfold execTripLevelChange
  split <;> rename_i hlevels
  · rename_i level rest
    have hmon : Keeps s.quiet (s.quiet.setMonitor { s.monitor with tripLevel := level, levelsHanded := rest }) :=
      monitored_keeps fun h => by
        change s.monitor.sound = true at h
        simp only [Monitor.sound, hlevels, List.all_cons, Bool.and_eq_true] at h ⊢
        exact ⟨h.2.1, h.2.2⟩
    exact Keeps.event (hmon.trans (compareSupply_keeps _))
  · exact Keeps.noEvent

/-! ## Beat and tick (R37 to R39) -/

theorem cadenceSound_iff (c : Cadence) :
    c.sound = true ↔ (10 ≤ c.beatMs ∧ c.beatMs ≤ 1000) ∧ (∀ b, c.pendingBeatMs = some b → 10 ≤ b ∧ b ≤ 1000) ∧
      c.tickPhase ≤ c.beatMs := by
  unfold Cadence.sound
  cases c.pendingBeatMs <;> simp [inRange, and_assoc]

theorem takeBeat_cadence_sound {c : Cadence} (h : c.sound = true) :
    Cadence.sound { tickPhase := 0, beat := c.beat + 1, beatMs := c.pendingBeatMs.getD c.beatMs, pendingBeatMs := none } =
      true := by
  obtain ⟨hbeat, hpending, -⟩ := (cadenceSound_iff c).1 h
  refine (cadenceSound_iff _).2 ⟨?_, ?_, Nat.zero_le _⟩
  swap
  · rintro b ⟨⟩
  cases hp : c.pendingBeatMs with
  | none => exact hbeat
  | some b => exact hpending b hp

theorem map_port (f : Port → Port) (q : PortNo) : ({ s with ports := s.ports.map f } : State).port q = f (s.port q) :=
  Table.get_map f s.ports q

/-- Every port changed by one function that keeps it sound and in its place. -/
theorem mapped_keeps {f : Port → Port} (h : ∀ x : Port, x.Good → (f x).Good ∧ x.Moves (f x)) :
    Keeps s { s with ports := s.ports.map f } :=
  .of_ports (fun p hp => by rw [map_port]; exact h _ hp) rfl rfl id

theorem takeBeat_keeps (s : State) : Keeps s (takeBeat s) := by
  have hports : Keeps s { s with ports := s.ports.map fun x => { x with boundaries := x.boundaries ++ [s.cadence.beat + 1] } } :=
    mapped_keeps fun x h => ⟨h.aside, .of_mail rfl rfl⟩
  exact (hports.trans (cadenced_keeps takeBeat_cadence_sound)).trans (.of_same rfl rfl rfl rfl rfl)

theorem execBeatBoundary_keeps : Reaches (execBeatBoundary s) (Keeps s) := by
  unfold execBeatBoundary
  split
  · exact Keeps.event (takeBeat_keeps _)
  · exact Keeps.noEvent

theorem countDown_serves (st : ReaderState) (q : PortNo) : st.countDown.serves q = st.serves q := by
  cases st <;> rfl

theorem countDown_readsHead {st : ReaderState} {queue : List PortNo} (h : st.readsHead queue) :
    st.countDown.readsHead queue := by
  cases st <;> exact h

theorem countDown_governor_sound {g : Governor} (h : g.sound = true) :
    Governor.sound { g with history := g.history.map (· - 1), state := g.state.countDown } = true := by
  obtain ⟨hset, hheld, hlen, hhist, hst⟩ := (governorSound_iff _).1 h
  refine (governorSound_iff _).2 ⟨hset, hheld, by rw [List.length_map]; exact hlen, fun d hd => ?_, ?_⟩
  · obtain ⟨d', hd', rfl⟩ := List.mem_map.1 hd
    exact (Nat.sub_le _ _).trans (hhist d' hd')
  · dsimp only
    revert hst
    cases g.state with
    | opened => exact id
    | holdoff d => exact fun hd => (Nat.sub_le d 1).trans hd

theorem countAll_keeps (s : State) : Keeps s (countAll s) := by
  have hports : Keeps s { s with ports := s.ports.map Port.countDown } :=
    mapped_keeps fun x h => ⟨h.countDown, .of_mail rfl rfl⟩
  have hreader := hports.trans (reading_keeps (countDown_serves s.reader.state) countDown_readsHead)
  have hgov := hreader.trans (governed_keeps (g := { s.governor with
    history := s.governor.history.map (· - 1), state := s.governor.state.countDown }) rfl rfl countDown_governor_sound)
  exact hgov.trans (.of_same rfl rfl rfl rfl rfl)

/-- The phase advances in a state whose boundary is not due. -/
theorem advance_keeps (s : State) (h : s.cadence.sound = true → s.cadence.tickPhase < s.cadence.beatMs) :
    Keeps s { countAll s with cadence := { s.cadence with tickPhase := s.cadence.tickPhase + 1 } } := by
  have hphase : Keeps (countAll s)
      { countAll s with cadence := { s.cadence with tickPhase := s.cadence.tickPhase + 1 } } :=
    cadenced_keeps fun hc => by
      obtain ⟨hbeat, hpending, -⟩ := (cadenceSound_iff _).1 hc
      exact (cadenceSound_iff _).2 ⟨hbeat, hpending, h hc⟩
  exact (countAll_keeps s).trans hphase

theorem takeTick_keeps (s : State) : Keeps s (takeTick s) := by
  unfold takeTick
  dsimp only
  split <;> rename_i hdue
  · refine (takeBeat_keeps s).trans (advance_keeps _ fun hc => ?_)
    exact Nat.lt_of_lt_of_le (by decide : 0 < 10) ((cadenceSound_iff _).1 hc).1.1
  · exact advance_keeps s fun _ => by simpa [Cadence.boundaryDue] using hdue

end Sys2Proof.Machine
end

section
/-! Target sets, CLEAR, profiles and sweeps keep the invariants of ports, rig and queues. -/

set_option Elab.async false

namespace Sys2Proof.Machine

variable {p : PortNo} {s t u : State}

/-! ## What the three invariants do not read -/

namespace Keeps

theorem setWalker (h : Keeps s t) (w : Walker) : Keeps s (t.setWalker w) := h.trans (.of_same rfl rfl rfl rfl rfl)

theorem setEntry (h : Keeps s t) (e : EntryNo) (x : Option Entry) : Keeps s (t.setEntry e x) :=
  h.trans (.of_same rfl rfl rfl rfl rfl)

theorem setGroup (h : Keeps s t) (g : GroupNo) (x : Group) : Keeps s (t.setGroup g x) :=
  h.trans (.of_same rfl rfl rfl rfl rfl)

theorem setSweep (h : Keeps s t) (r : SweepNo) (x : Option Sweep) : Keeps s (t.setSweep r x) :=
  h.trans (.of_same rfl rfl rfl rfl rfl)

theorem setBinding (h : Keeps s t) (n : LineNo) (b : Option Binding) : Keeps s (t.setBinding n b) :=
  h.trans (.of_same rfl rfl rfl rfl rfl)

theorem setLine (h : Keeps s t) (n : LineNo) (l : Line) : Keeps s (t.setLine n l) :=
  h.trans (.of_same rfl rfl rfl rfl rfl)

theorem setRegs (h : Keeps s t) (r : Registers) : Keeps s (t.setRegs r) := h.trans (.of_same rfl rfl rfl rfl rfl)

theorem setWriter (h : Keeps s t) (w : Writer) : Keeps s (t.setWriter w) := h.trans (.of_same rfl rfl rfl rfl rfl)

theorem raise (h : Keeps s t) (c : Cause) : Keeps s (t.raise c) := h.trans (raise_keeps c)

theorem post (h : Keeps s t) (x : Slot) : Keeps s (t.post x) := h.trans (post_keeps x)

theorem emit (h : Keeps s t) (a : List WireAct) : Keeps s (t.emit a) := h.trans (emit_keeps a)

theorem place (h : Keeps s t) (a : Access) : Keeps s (t.place a) := h.setWalker _

theorem placeHeaderWrite (h : Keeps s t) : Keeps s t.placeHeaderWrite :=
  h.trans (.of_same (by simp) (by simp) (by simp) (by simp) (by simp))

theorem recordOutcome (h : Keeps s t) (e : EntryNo) (p : PortNo) (o : OutcomeCode) : Keeps s (t.recordOutcome e p o) :=
  h.trans (.of_same (by simp) (by simp) (by simp) (by simp) (by simp))

theorem finishEntry (h : Keeps s t) (e : EntryNo) : Keeps s (t.finishEntry e) :=
  h.trans (.of_same (by simp) (by simp) (by simp) (by simp) (by simp))

end Keeps

/-! ## Target sets (R11, R12) -/

theorem takeTarget_step (t : TargetSet) (ref : Option EntryNo) : PortStep p s (takeTarget p t ref s) := by
  have h := ((PortStep.refl p s).drawStamp.storeTarget t.target).carryOut t (s.port p).target
  unfold takeTarget
  dsimp only
  split
  · exact h.joinWaiters ref
  · exact h

theorem takeTarget_reader (t : TargetSet) (ref : Option EntryNo) : (takeTarget p t ref s).reader = s.reader := by
  have hr : (carryOut p t (s.port p).target (storeTarget p t.target (s.drawStamp p))).reader = s.reader :=
    ((PortRun.refl.storeTarget _).carryOut _ _).reader
  unfold takeTarget
  dsimp only
  split
  · cases ref <;> simpa [joinWaiters] using hr
  · exact hr

theorem targetSet_keeps (p : PortNo) (t : TargetSet) (ref : Option EntryNo) (s : State) :
    Keeps s (targetSet p t ref s).2 := by
  cases hd : declines (s.port p) t with
  | some o => rw [targetSet_declined p s hd]; exact .refl s
  | none =>
    rw [targetSet_taken p s hd]
    refine Keeps.atPort (Keeps.of_portStep (takeTarget_step t ref) (takeTarget_reader t ref) fun h => ?_)
    rw [takeTarget_port]
    exact ⟨h.targetTaken _ hd ref _, Port.targetTaken_moves _ hd ref _⟩

theorem handTargets_keeps (t : TargetSet) (ref : Option EntryNo) (ps : List PortNo) (a : Answers) (s : State) :
    Keeps s (handTargets t ref ps a s).2 := by
  induction ps generalizing a s with
  | nil => exact .refl s
  | cons p rest ih => exact (targetSet_keeps p t ref s).trans (ih _ _)

/-! ## CLEAR (R8, R77) -/

/-- A port faulted before its record was read is read again (R77). -/
theorem identifyAgain_keeps {r : FaultReason} (hst : (s.port p).state = .faulted r)
    (hr : (PState.faulted r).noRecord = true) (ticket : Nat) : Keeps s (identifyAgain p ticket s) := by
  have hrun : PortRun p false s (identifyAgain p ticket s) := PortRun.refl.identifyAgain ticket
  have hport : (identifyAgain p ticket s).port p = (s.port p).identifiedAgain ticket s.cadence.beat := by
    simp [identifyAgain, Port.identifiedAgain]
  have hmail := Port.entered_mail (x := s.port p) s.cadence.beat .identifying
  simp only [Port.mail, Prod.mk.injEq] at hmail
  obtain ⟨hto, hfrom, hreader, hresults⟩ := hmail
  obtain ⟨jto, jfrom, jreader, jresults, jstate⟩ :=
    joinHanded_grant ticket ((s.port p).entered .identifying s.cadence.beat)
  refine .of_reading hrun.portStep (fun hg => ?_) (fun hg q o hf => ?_) fun hg hsound hf =>
    ⟨by rw [hrun.reader]; exact hsound, ?_, others_of_reader hrun.reader⟩
  · rw [hport]; exact hg.identifiedAgain _ hst hr ticket
  · rw [hst] at hf
    rw [hport, Port.identifiedAgain, jto, jfrom, jstate, hto, hfrom, entered_state]
    exact hf
  · unfold State.readerFits at hf ⊢
    rw [hst] at hf
    rw [hrun.reader, hport, Port.identifiedAgain, jreader, jresults, jstate, hreader, hresults, entered_state]
    exact hf.readAgain

theorem clearTaken_moves {x : Port} (hnoack : x.state ≠ .faulted .plugNoack) (hbad : x.state ≠ .faulted .plugBad)
    (ticket : Nat) (b : Word) : x.Moves (x.clearTaken ticket b) := by
  unfold Port.clearTaken
  split
  · exact absurd ‹_› hnoack
  · exact absurd ‹_› hbad
  · rename_i hst
    exact .wentOff b (by rw [hst]; rfl) (by rw [hst]; exact .of_mail rfl)
  · exact .of_mail rfl rfl

theorem clearPort_keeps (p : PortNo) (ticket : Nat) (s : State) : Keeps s (clearPort p ticket s).2 := by
  have hagain : ∀ r, (s.port p).state = .faulted r → (r = .plugNoack ∨ r = .plugBad) →
      Keeps s (clearPort p ticket s).2 := by
    intro r hst hr
    rw [show (clearPort p ticket s).2 = identifyAgain p ticket s by
      unfold clearPort; rw [hst]; rcases hr with rfl | rfl <;> rfl]
    exact identifyAgain_keeps hst (by rcases hr with rfl | rfl <;> rfl) ticket
  by_cases hnoack : (s.port p).state = .faulted .plugNoack
  · exact hagain _ hnoack (.inl rfl)
  · by_cases hbad : (s.port p).state = .faulted .plugBad
    · exact hagain _ hbad (.inr rfl)
    · have hrun : PortRun p true s (clearPort p ticket s).2 := PortRun.refl.clearPort ticket
      refine Keeps.of_portStep hrun.portStep hrun.reader fun h => ?_
      rw [clearPort_port]
      exact ⟨h.clearTaken _ ticket, clearTaken_moves hnoack hbad ticket _⟩

theorem clearPorts_keeps (ticket : Nat) (ps : List PortNo) (o : Table OutcomeCode 16) (s : State) :
    Keeps s (clearPorts ticket ps o s).2 := by
  induction ps generalizing o s with
  | nil => exact .refl s
  | cons p rest ih => exact (clearPort_keeps p ticket s).atPort.trans (ih _ _)

/-! ## Replacements (R91) -/

theorem handReplacements_keeps (l : Profile) (ps : List PortNo) (s : State) : Keeps s (handReplacements l ps s) := by
  induction ps generalizing s with
  | nil => exact .refl s
  | cons p rest ih =>
    refine Keeps.trans ?_ (ih _)
    refine Keeps.of_portStep ((PortStep.refl p s).modPort _) rfl fun h => ?_
    rw [port_modPort_self]
    exact ⟨h.aside, .of_mail rfl rfl⟩

/-! ## Sweeps (R157 to R161) -/

theorem recordAnswer_keeps (o : Origin) (p : PortNo) (a : Answer) (h : Keeps s t) : Keeps s (recordAnswer o p a t) := by
  unfold recordAnswer
  split
  · exact h.recordOutcome _ _ _
  · exact h

theorem visitMember_keeps (x : Sweep) (p : PortNo) (s : State) : Keeps s (visitMember x p s) := by
  unfold visitMember
  split
  · exact recordAnswer_keeps _ _ _ (.refl s)
  · exact recordAnswer_keeps _ _ _ (targetSet_keeps _ _ _ _)

theorem freeSweep_keeps (r : SweepNo) (x : Sweep) (h : Keeps s t) : Keeps s (freeSweep r x t) :=
  (h.setGroup _ _).setSweep _ _

theorem runVisits_keeps (n : Nat) (r : SweepNo) (s : State) : Keeps s (runVisits n r s).2 := by
  induction n generalizing s with
  | zero => exact .refl s
  | succ n ih =>
    simp only [runVisits]
    split
    · exact .refl s
    · rename_i x _
      have hvisit : Keeps s (match (s.members x.group)[x.cursor]? with
          | some p => visitMember x p s
          | none => s) := by
        split
        · exact visitMember_keeps _ _ _
        · exact .refl s
      split_ifs
      · exact freeSweep_keeps r x hvisit
      · exact (hvisit.setSweep r _).trans (ih _)
      · exact hvisit.setSweep r _

theorem startSweep_keeps (r : SweepNo) (g : GroupNo) (d : GroupDef) (t : TargetSet) (o : Origin) (b : Nat)
    (s : State) : Keeps s (startSweep r g d t o b s).2 :=
  (((Keeps.refl s).setGroup g _).setSweep r _).trans (runVisits_keeps _ r _)

theorem judgeEdge_keeps (n : LineNo) (toHigh : Bool) (s : State) : Keeps s (judgeEdge n toHigh s).2 := by
  unfold judgeEdge
  split
  · exact .refl s
  · split
    · split
      · exact .refl s
      · exact .refl s
      · exact startSweep_keeps ..
    · exact .refl s

end Sys2Proof.Machine
end

section
/-! The walker's takes keep the invariants of ports, rig and queues (chapters 7 and 8). -/

set_option Elab.async false

namespace Sys2Proof.Machine

variable {s t u : State}

/-! ## The end of a take (R121) -/

namespace Keeps

theorem moveAnchor (h : Keeps s t) (c : FetchedCopy) (form : BlockForm) : Keeps s (moveAnchor c form t) :=
  (h.setWalker _).place _

theorem lookFromAnchor (h : Keeps s t) : Keeps s (lookFromAnchor t) := h.placeHeaderWrite.place _

theorem refuse (h : Keeps s t) (c : FetchedCopy) (r : RefusalReason) : Keeps s (refuse c r t) :=
  (h.moveAnchor c _).lookFromAnchor

theorem complete (h : Keeps s t) (c : FetchedCopy) (outs : Table OutcomeCode 16) : Keeps s (complete c outs t) :=
  (h.moveAnchor c _).lookFromAnchor

theorem stall (h : Keeps s t) (c : FetchedCopy) : Keeps s (stall c t) := h.setWalker _

end Keeps

/-! ## The nine kinds -/

theorem takeUnstaggered_keeps (c : FetchedCopy) (t : TargetSet) (ps : List PortNo) (s : State) :
    Keeps s (takeUnstaggered c t ps s) := by
  unfold takeUnstaggered
  split
  · split
    · exact (Keeps.refl s).stall c
    · exact (((handTargets_keeps _ _ _ _ _).setEntry _ _).moveAnchor c _).lookFromAnchor
  · exact (handTargets_keeps _ _ _ _ _).complete c _

theorem takeStaggered_keeps (c : FetchedCopy) (g : GroupNo) (d : GroupDef) (t : TargetSet) (n : Nat) (s : State) :
    Keeps s (takeStaggered c g d t n s) := by
  unfold takeStaggered
  split
  · exact (((((Keeps.refl s).setEntry _ _).trans (startSweep_keeps ..)).moveAnchor c _).finishEntry _).lookFromAnchor
  · exact (Keeps.refl s).stall c

theorem takePortTarget_keeps (k : Kind) (c : FetchedCopy) (s : State) : Keeps s (takePortTarget k c s) := by
  unfold takePortTarget
  dsimp only
  split
  · split
    · exact (Keeps.refl s).refuse c _
    · split
      · exact takeUnstaggered_keeps ..
      · exact takeStaggered_keeps ..
  · exact takeUnstaggered_keeps ..

theorem storeProfile_keeps (c : FetchedCopy) (l : Profile) (s : State) : Keeps s (storeProfile c l s) :=
  (handReplacements_keeps _ _ _).complete c _

theorem takeSetProfile_keeps (c : FetchedCopy) (s : State) : Keeps s (takeSetProfile c s) := by
  unfold takeSetProfile
  dsimp only
  split_ifs
  · exact (Keeps.refl s).refuse c _
  · exact storeProfile_keeps ..
  · exact (Keeps.refl s).refuse c _
  · exact ((Keeps.refl s).setWalker _).place _

theorem takeProfileList_keeps (c : FetchedCopy) (data : List Byte) (s : State) : Keeps s (takeProfileList c data s) := by
  unfold takeProfileList
  dsimp only
  split
  · exact storeProfile_keeps ..
  · exact (Keeps.refl s).refuse c _

theorem takeSetGroup_keeps (c : FetchedCopy) (s : State) : Keeps s (takeSetGroup c s) := by
  unfold takeSetGroup
  split
  · exact (Keeps.refl s).refuse c _
  · split
    · exact (Keeps.refl s).refuse c _
    · exact ((Keeps.refl s).setGroup _ _).complete c _

theorem takeBindInput_keeps (c : FetchedCopy) (s : State) : Keeps s (takeBindInput c s) := by
  unfold takeBindInput
  split
  · exact (Keeps.refl s).refuse c _
  · split
    · exact (Keeps.refl s).refuse c _
    · exact ((Keeps.refl s).setBinding _ _).complete c _
  · split
    · exact (Keeps.refl s).refuse c _
    · exact ((Keeps.refl s).setBinding _ _).complete c _

/-! ### SET_RIG (R94, R150) -/

/-- A given setting in range, or the old one. -/
theorem inRange_getD {lo hi old : Nat} {o : Option Nat} (h : inRange lo hi o = true)
    (hold : inRange lo hi (some old) = true) : inRange lo hi (some (o.getD old)) = true := by
  cases o with
  | none => exact hold
  | some v => exact h

/-- The settings of an offer in range. -/
theorem offered_sound {o : RigOffer} {r : RigSettings} (ho : o.inRange = true) (hr : r.sound = true) :
    RigSettings.sound
      { grantLimit := o.grantLimit.getD r.grantLimit, windowMs := o.windowMs.getD r.windowMs
        bootCap := o.bootCap.getD r.bootCap, holdoffMs := o.holdoffMs.getD r.holdoffMs
        tripLevel := o.tripLevel.getD r.tripLevel } = true := by
  simp only [RigOffer.inRange, Bool.and_eq_true] at ho
  simp only [RigSettings.sound, Bool.and_eq_true] at hr ⊢
  obtain ⟨⟨⟨⟨⟨ho₁, ho₂⟩, ho₃⟩, ho₄⟩, ho₅⟩, -⟩ := ho
  obtain ⟨⟨⟨⟨hr₁, hr₂⟩, hr₃⟩, hr₄⟩, hr₅⟩ := hr
  exact ⟨⟨⟨⟨inRange_getD ho₁ hr₁, inRange_getD ho₂ hr₂⟩, inRange_getD ho₃ hr₃⟩, inRange_getD ho₄ hr₄⟩,
    inRange_getD ho₅ hr₅⟩

/-- A governor that is not busy holds no slot. -/
theorem slotsHeld_of_not_busy {g : Governor} (h : g.busy = false) : g.slotsHeld = 0 := by
  unfold Governor.busy at h
  rw [Bool.or_eq_false_iff] at h
  exact List.count_eq_zero.2 fun hin => by
    have := h.2
    rw [List.contains_iff_mem.2 hin] at this
    cases this

theorem acceptOffer_keeps {o : RigOffer} (ho : o.inRange = true) (hbusy : s.governor.busy = false) :
    Keeps s (acceptOffer o s) := by
  have hgov : Keeps s (s.setGovernor { s.governor with
      settings :=
        { grantLimit := o.grantLimit.getD s.governor.settings.grantLimit
          windowMs := o.windowMs.getD s.governor.settings.windowMs
          bootCap := o.bootCap.getD s.governor.settings.bootCap
          holdoffMs := o.holdoffMs.getD s.governor.settings.holdoffMs
          tripLevel := o.tripLevel.getD s.governor.settings.tripLevel } }) :=
    governed_keeps rfl rfl fun hg => by
      obtain ⟨hset, -, hlen, hhist, hst⟩ := (governorSound_iff _).1 hg
      refine (governorSound_iff _).2 ⟨offered_sound ho hset, ?_, hlen, hhist, hst⟩
      exact (slotsHeld_of_not_busy hbusy).le.trans (Nat.zero_le _)
  have hrange := ho
  simp only [RigOffer.inRange, Bool.and_eq_true] at hrange
  have hmon : ∀ v : State, Keeps v
      (v.setMonitor { v.monitor with levelsHanded := v.monitor.levelsHanded ++ o.tripLevel.toList }) := fun v =>
    monitored_keeps fun hm => by
      simp only [Monitor.sound, Bool.and_eq_true, List.all_append] at hm ⊢
      refine ⟨hm.1, hm.2, ?_⟩
      have hlevel := hrange.1.2
      cases htrip : o.tripLevel with
      | none => rfl
      | some l => rw [htrip] at hlevel; simpa using hlevel
  unfold acceptOffer
  dsimp only
  split <;> rename_i hbeat
  · rename_i b
    refine (hgov.trans (hmon _)).trans (cadenced_keeps fun hc => ?_)
    obtain ⟨hlen, -, hphase⟩ := (cadenceSound_iff _).1 hc
    refine (cadenceSound_iff _).2 ⟨hlen, ?_, hphase⟩
    have hb := hrange.2
    rw [hbeat] at hb
    rintro b' ⟨⟩
    simpa [inRange] using hb
  · exact hgov.trans (hmon _)

theorem takeSetRig_keeps (c : FetchedCopy) (s : State) : Keeps s (takeSetRig c s) := by
  unfold takeSetRig
  dsimp only
  split_ifs with hrange hbusy
  · exact (Keeps.refl s).refuse c _
  · exact (Keeps.refl s).refuse c _
  · exact (acceptOffer_keeps (by simpa using hrange) (by simpa using hbusy)).complete c _

/-! ## A copy taken -/

theorem takeCopy_keeps (c : FetchedCopy) (s : State) : Keeps s (takeCopy c s) := by
  unfold takeCopy
  split
  · exact (Keeps.refl s).refuse c _
  · rename_i k _
    split_ifs
    · exact (Keeps.refl s).refuse c _
    · exact (Keeps.refl s).refuse c _
    · cases k with
      | wake => exact takePortTarget_keeps _ c s
      | pause => exact takePortTarget_keeps _ c s
      | resume => exact takePortTarget_keeps _ c s
      | sleep => exact takePortTarget_keeps _ c s
      | clear => exact (clearPorts_keeps _ _ _ s).complete c _
      | setProfile => exact takeSetProfile_keeps c s
      | setGroup => exact takeSetGroup_keeps c s
      | bindInput => exact takeBindInput_keeps c s
      | setRig => exact takeSetRig_keeps c s

namespace Keeps

theorem retake (h : Keeps s t) : Keeps s (retake t) := by
  unfold Machine.retake
  split
  · exact h.trans (takeCopy_keeps _ t)
  · exact h

theorem retakeIf (h : Keeps s t) (ended : Bool) : Keeps s (retakeIf ended t) := by
  unfold Machine.retakeIf
  split
  · exact h.retake
  · exact h

/-! ## The walker's states -/

theorem enterWatching (h : Keeps s t) : Keeps s (enterWatching t) := by
  unfold Machine.enterWatching
  dsimp only
  split
  · exact ((h.setWalker _).setWalker _).place _
  · exact h.setWalker _

theorem nudgeWalker (h : Keeps s t) : Keeps s (nudgeWalker t) := by
  unfold Machine.nudgeWalker
  split
  · split
    · exact h.setWalker _
    · exact h.place _
  · exact h.setWalker _
  · exact h.setWalker _
  · exact h

theorem pollWalker (h : Keeps s t) : Keeps s (pollWalker t) := by
  unfold Machine.pollWalker
  split
  · exact h.place _
  · exact h

theorem haltWalker (h : Keeps s t) (r : HaltReason) : Keeps s (haltWalker r t) := (h.setWalker _).raise _

theorem attachWalker (h : Keeps s t) : Keeps s (attachWalker t) := by
  unfold Machine.attachWalker
  dsimp only
  have hgo : Keeps s (if t.walker.hasHeaderRead then t
      else if boardBaseBad t.regs.boardBase then Machine.haltWalker .badHeader t
      else t.setWalker { t.walker with accesses := .headerRead t.regs.boardBase :: t.walker.accesses }) := by
    split_ifs
    · exact h
    · exact h.haltWalker _
    · exact h.setWalker _
  split
  · exact hgo
  · exact hgo
  · exact h

theorem detachWalker (h : Keeps s t) : Keeps s (detachWalker t) := by
  unfold Machine.detachWalker
  dsimp only
  split
  · exact h.setWalker _
  · exact h.setWalker _
  · exact h.setWalker _
  · exact h

theorem endAccess (h : Keeps s t) : Keeps s (endAccess t) := h.setWalker _

theorem landParts (h : Keeps s t) (parts : List (Addr × List Byte)) : Keeps s (landParts parts t) := h.emit _

end Keeps

end Sys2Proof.Machine
end

section
/-! The bus, the inputs, the register window and the resets keep the invariants of ports, rig and queues. -/

set_option Elab.async false

namespace Sys2Proof.Machine

variable {s t u : State}

/-! ## Bus completions -/

theorem headerRead_keeps (a : Addr) (data : Table Byte 64) (h : Keeps s t) : Keeps s (headerRead a data t) := by
  unfold headerRead
  split
  · unfold attachGood
    exact (((h.setWalker _).placeHeaderWrite).setWriter _).enterWatching
  · exact h.haltWalker _

theorem linkRead_keeps (a : Addr) (h : Keeps s t) : Keeps s (linkRead a t) := by
  unfold linkRead
  split_ifs
  · exact h.enterWatching
  · exact h.haltWalker _
  · exact (h.setWalker _).place _

theorem blockRead_keeps (a : Addr) (data : Table Byte 64) (h : Keeps s t) : Keeps s (blockRead a data t) := by
  unfold blockRead
  split
  · exact (h.setWalker _).enterWatching
  · exact (h.setWalker _).trans (takeCopy_keeps _ _)
  · exact (h.setWalker _).haltWalker _

theorem listRead_keeps (data : List Byte) (h : Keeps s t) : Keeps s (listRead data t) := by
  unfold listRead
  split
  · exact h.trans (takeProfileList_keeps _ _ _)
  · exact h

/-- A read that counts, or whose data is discarded. -/
theorem readIf_keeps {b : BusAccess} {f : State → State} (hf : ∀ t, Keeps s t → Keeps s (f t)) (h : Keeps s t) :
    Keeps s (if readCounts t b then f (endAccess t) else endAccess t) := by
  split
  · exact hf _ h.endAccess
  · exact h.endAccess

theorem execHeaderReadComplete_keeps (data : Table Byte 64) : Reaches (execHeaderReadComplete data s) (Keeps s) := by
  unfold execHeaderReadComplete
  split
  · split
    · exact Keeps.event (readIf_keeps (fun _ h => headerRead_keeps _ _ h) (.refl _))
    · exact Keeps.noEvent
  · exact Keeps.noEvent

theorem execLinkReadComplete_keeps (link : Addr) : Reaches (execLinkReadComplete link s) (Keeps s) := by
  unfold execLinkReadComplete
  split
  · split
    · exact Keeps.event (readIf_keeps (fun _ h => linkRead_keeps _ h) (.refl _))
    · exact Keeps.noEvent
  · exact Keeps.noEvent

theorem execBlockReadComplete_keeps (data : Table Byte 64) : Reaches (execBlockReadComplete data s) (Keeps s) := by
  unfold execBlockReadComplete
  split
  · split
    · exact Keeps.event (readIf_keeps (fun _ h => blockRead_keeps _ _ h) (.refl _))
    · exact Keeps.noEvent
  · exact Keeps.noEvent

theorem execProfileListReadComplete_keeps (data : List Byte) :
    Reaches (execProfileListReadComplete data s) (Keeps s) := by
  unfold execProfileListReadComplete
  split
  · split
    · split
      · exact Keeps.event (readIf_keeps (fun _ h => listRead_keeps _ h) (.refl _))
      · exact Keeps.noEvent
    · exact Keeps.noEvent
  · exact Keeps.noEvent

theorem finalWritten_keeps (w : BlockWrite) (h : Keeps s t) : Keeps s (finalWritten w t) := by
  have hcount : Keeps s (if w.notify then
      (t.setWalker { t.walker with finishedCount := t.walker.finishedCount + 1 }).placeHeaderWrite.raise .requestDone
      else (t.setWalker { t.walker with finishedCount := t.walker.finishedCount + 1 }).placeHeaderWrite) := by
    split
    · exact (h.setWalker _).placeHeaderWrite.raise _
    · exact (h.setWalker _).placeHeaderWrite
  unfold finalWritten
  dsimp only
  split
  · exact (hcount.setEntry _ _).retake
  · exact hcount

theorem blockWritten_keeps (b : BusAccess) (w : BlockWrite) (h : Keeps s t) : Keeps s (blockWritten b w t) := by
  have hrelease : Keeps s (releaseCopy w (landParts b.parts (endAccess t))) := by
    unfold releaseCopy
    split
    · exact (h.endAccess.landParts _).setWalker _
    · exact h.endAccess.landParts _
  unfold blockWritten
  dsimp only
  split
  · exact hrelease
  · exact finalWritten_keeps w hrelease

theorem execBlockWriteComplete_keeps : Reaches (execBlockWriteComplete s) (Keeps s) := by
  unfold execBlockWriteComplete
  split
  · split
    · exact Keeps.event (blockWritten_keeps _ _ (.refl _))
    · exact Keeps.noEvent
  · exact Keeps.noEvent

theorem execHeaderWriteComplete_keeps : Reaches (execHeaderWriteComplete s) (Keeps s) := by
  unfold execHeaderWriteComplete
  split
  · split
    · exact Keeps.event ((Keeps.refl _).endAccess.landParts _)
    · exact Keeps.noEvent
  · exact Keeps.noEvent

theorem walkerFails_keeps (b : BusAccess) (h : Keeps s t) : Keeps s (walkerFails b t) := by
  have hkept : Keeps s (if b.access.isRead then endAccess t
      else (endAccess t).setWalker
        { (endAccess t).walker with accesses := keepWrite b.access (endAccess t).walker.accesses }) := by
    split
    · exact h.endAccess
    · exact h.endAccess.setWalker _
  unfold walkerFails
  dsimp only
  split
  · exact hkept
  · exact hkept.haltWalker _

theorem writerFails_keeps (w : SlotWrite) (h : Keeps s t) : Keeps s (writerFails w t) := by
  unfold writerFails
  dsimp only
  split
  · exact h.setWriter _
  · exact (h.setWriter _).haltWalker _

theorem execAccessFailure_keeps (a : BusAgent) : Reaches (execAccessFailure a s) (Keeps s) := by
  unfold execAccessFailure
  split
  · split
    · exact Keeps.event (walkerFails_keeps _ (.refl _))
    · exact Keeps.noEvent
  · split
    · exact Keeps.event (writerFails_keeps _ (.refl _))
    · exact Keeps.noEvent

theorem execSlotWriteComplete_keeps : Reaches (execSlotWriteComplete s) (Keeps s) := by
  unfold execSlotWriteComplete
  split
  · exact Keeps.event (((Keeps.refl _).setWriter _).landParts _)
  · exact Keeps.noEvent

/-! ## Sweep steps, inputs and polls -/

theorem afterVisits_keeps (o : Origin) (r : Bool × State) (h : Keeps s r.2) : Keeps s (afterVisits o r) := by
  have hfinish : Keeps s (match o with
      | .request e => r.2.finishEntry e
      | .line _ => r.2) := by
    split
    · exact h.finishEntry _
    · exact h
  exact hfinish.retakeIf _

theorem execSweepStep_keeps (r : SweepNo) : Reaches (execSweepStep r s) (Keeps s) := by
  unfold execSweepStep
  split
  · split
    · refine Keeps.event ?_
      unfold stepSweep
      dsimp only
      split
      · exact afterVisits_keeps _ _ (((Keeps.refl _).setSweep _ _).trans (runVisits_keeps _ _ _))
      · exact (Keeps.refl _).setSweep _ _
    · exact Keeps.noEvent
  · exact Keeps.noEvent

theorem execInputLineChange_keeps (n : LineNo) (high : Bool) : Reaches (execInputLineChange n high s) (Keeps s) := by
  unfold execInputLineChange
  split
  · exact Keeps.event ((Keeps.refl _).setLine _ _)
  · exact Keeps.noEvent

theorem debouncedChange_keeps (n : LineNo) (h : Keeps s t) : Keeps s (debouncedChange n t) :=
  (((((h.setLine n _).raise .studioInput).trans (judgeEdge_keeps n _ _)).setLine n _).post (.line n)).retakeIf _

theorem execInputDebounceExpiry_keeps (n : LineNo) : Reaches (execInputDebounceExpiry n s) (Keeps s) := by
  unfold execInputDebounceExpiry
  split
  · refine Keeps.event ?_
    unfold inputDebounced
    dsimp only
    split
    · exact debouncedChange_keeps n ((Keeps.refl _).setLine n _)
    · exact (Keeps.refl _).setLine n _
  · exact Keeps.noEvent

theorem execPolling_keeps : Reaches (execPolling s) (Keeps s) := by
  unfold execPolling
  split
  · exact Keeps.event ((Keeps.refl _).setWalker _).pollWalker
  · exact Keeps.noEvent

theorem execTick_keeps : Reaches (execTick s) (Keeps s) := Keeps.event (takeTick_keeps _)

/-! ## Resets (R35, R36) -/

theorem afterReset_good (x : Port) : x.afterReset.Good := ((sound_iff _).1 reset_sound).aside

/-- The part before the supply is compared at a reset (R35). -/
def cleared (regs : Registers) (s : State) : State :=
  { State.reset with
    pending := s.pending
    acts := s.acts
    ports := s.ports.map Port.afterReset
    lines := s.lines.map Line.afterReset
    monitor := { State.reset.monitor with supply := s.monitor.supply }
    regs := regs }

theorem cleared_port (regs : Registers) (q : PortNo) : (cleared regs s).port q = (s.port q).afterReset :=
  Table.get_map Port.afterReset s.ports q

theorem cleared_keeps (regs : Registers) (s : State) : Keeps s (cleared regs s) := by
  refine ⟨fun _ => ?_, fun _ => ?_, fun _ _ => ?_⟩
  · exact (portsSound_iff _).2 fun q => by rw [cleared_port]; exact afterReset_good _
  · rw [rigSound_iff]
    exact ⟨(by decide : State.reset.governor.sound = true), (by decide : State.reset.monitor.sound = true),
      (by decide : State.reset.cadence.sound = true)⟩
  · refine (queuesSound_iff _).2 ⟨(by decide : State.reset.reader.sound = true), List.nodup_nil, fun q => ?_, fun q => ?_⟩
    · unfold State.readerFits
      rw [cleared_port]
      exact ReaderFit.gone_iff.2 ⟨.inl ⟨rfl, rfl⟩, Nat.zero_le _⟩
    · unfold State.grantFits
      rw [cleared_port]
      have hholder : (cleared regs s).governor.holders.get q = false := Table.get_replicate _ _
      rw [hholder]
      exact ⟨rfl, rfl, rfl⟩

theorem resetPart_keeps (regs : Registers) (s : State) : Keeps s (resetPart regs s) :=
  (cleared_keeps regs s).trans (compareSupply_keeps _)

theorem rigReset_keeps (h : Keeps s t) : Keeps s (rigReset t) := (h.emit _).trans (resetPart_keeps _ _)

theorem Good_withoutWaiters {x : Port} (h : x.Good) : ({ x with waiters := [] } : Port).Good :=
  ⟨h.lane, h.pulse, h.untimed, h.timed, h.still, h.plugged, h.record, fun ht => ⟨(h.resting ht).1, rfl⟩, h.cut,
    h.reason, h.attempts, h.recovery, h.silence, h.tuning, h.phrase⟩

theorem linkReset_keeps (s : State) : Keeps s (linkReset s) := by
  have hcancel : Keeps s (cancelRequestSweeps allSweeps s) := by
    have h := cancelRequestSweeps_poolOnly allSweeps s
    rw [h]
    exact .of_same rfl rfl rfl rfl rfl
  have hports : Keeps (cancelRequestSweeps allSweeps s)
      { cancelRequestSweeps allSweeps s with
        ports := (cancelRequestSweeps allSweeps s).ports.map fun x => { x with waiters := [] } } :=
    mapped_keeps fun x h => ⟨Good_withoutWaiters h, .of_mail rfl rfl⟩
  exact (hcancel.trans hports).trans (.of_same rfl rfl rfl rfl rfl)

/-! ## The register window (R182 to R186) -/

theorem writeControl_keeps (w : Word) (h : Keeps s t) : Keeps s (writeControl w t) := by
  unfold writeControl
  split
  · exact rigReset_keeps h
  · unfold controlFields
    dsimp only
    split
    · exact (h.setRegs _).attachWalker
    · exact (h.setRegs _).detachWalker
    · exact h.setRegs _

theorem writeBoardLo_keeps (w : Word) (h : Keeps s t) : Keeps s (writeBoardLo w t) := by
  unfold writeBoardLo
  split
  · exact h.setRegs _
  · exact h

theorem writeBoardHi_keeps (w : Word) (h : Keeps s t) : Keeps s (writeBoardHi w t) := by
  unfold writeBoardHi
  split
  · exact h.setRegs _
  · exact h

theorem writeWindow_keeps (r : Reg) (w : Word) (h : Keeps s t) : Keeps s (writeWindow r w t) := by
  cases r with
  | ident => exact h
  | control => exact writeControl_keeps w h
  | attn => exact h.setRegs _
  | attnMask => exact h.setRegs _
  | nudge => exact h.nudgeWalker
  | boardLo => exact writeBoardLo_keeps w h
  | boardHi => exact writeBoardHi_keeps w h
  | unused => exact h

theorem execRegisterWrite_keeps (offset : BitVec 5) (z : AccessSize) (w : Word) :
    Reaches (execRegisterWrite offset z w s) (Keeps s) := by
  unfold execRegisterWrite
  split
  · exact Keeps.noEvent
  · exact Keeps.event (writeWindow_keeps _ _ (.refl _))

theorem control_keeps (w : Word) : Reaches (event (writeControl w) s) (Keeps s) :=
  Keeps.event (writeControl_keeps w (.refl _))

/-! ## Every command -/

theorem exec_keeps (i : Instr) (s : State) : Reaches (exec i s) (Keeps s) := by
  cases i with
  | powerOnReset => exact Keeps.event (resetPart_keeps _ _)
  | linkReset => exact Keeps.event (linkReset_keeps _)
  | attach w => exact control_keeps _
  | detach w => exact control_keeps _
  | poll w => exact control_keeps _
  | rigReset w => exact control_keeps _
  | clearPowerOn w => exact control_keeps _
  | clearRig w => exact control_keeps _
  | clearLink w => exact control_keeps _
  | nudge z w => exact Keeps.event (Keeps.refl _).nudgeWalker
  | boardLo w => exact Keeps.event (writeBoardLo_keeps w (.refl _))
  | boardHi w => exact Keeps.event (writeBoardHi_keeps w (.refl _))
  | attn w => exact Keeps.event ((Keeps.refl _).setRegs _)
  | attnMask w => exact Keeps.event ((Keeps.refl _).setRegs _)
  | registerWrite offset z w => exact execRegisterWrite_keeps offset z w
  | beatBoundary => exact execBeatBoundary_keeps
  | keepaliveBoundary p => exact execKeepaliveBoundary_keeps p
  | polling => exact execPolling_keeps
  | sweepStep r => exact execSweepStep_keeps r
  | settleExpiry p => exact execSettleExpiry_keeps p
  | wakePulseEnd p => exact execWakePulseEnd_keeps p
  | bootLimitExpiry p => exact execBootLimitExpiry_keeps p
  | holdLimitExpiry p => exact execHoldLimitExpiry_keeps p
  | resumeLimitExpiry p => exact execResumeLimitExpiry_keeps p
  | stopLimitExpiry p => exact execStopLimitExpiry_keeps p
  | ackWaitExpiry p => exact execAckWaitExpiry_keeps p
  | retryGapExpiry p => exact execRetryGapExpiry_keeps p
  | partPhraseEndOk p => exact execPartPhraseEndOk_keeps p
  | hello p => exact execHello_keeps p
  | settled p => exact execSettled_keeps p
  | awake p => exact execAwake_keeps p
  | parting p => exact execParting_keeps p
  | cameraPhraseDiscarded p => exact execCameraPhraseDiscarded_keeps p
  | receiveLimit p => exact execReceiveLimit_keeps p
  | plugSenseChange p seated => exact execPlugSenseChange_keeps p seated
  | plugDebounceExpiry p => exact execPlugDebounceExpiry_keeps p
  | readerJoin p => exact execReaderJoin_keeps p
  | readerWithdrawal p => exact execReaderWithdrawal_keeps p
  | tryEnd r => exact execTryEnd_keeps r
  | plugReadRetryExpiry => exact execPlugReadRetryExpiry_keeps
  | identityResult p => exact execIdentityResult_keeps p
  | claim p => exact execClaim_keeps p
  | withdrawal p => exact execWithdrawal_keeps p
  | release p => exact execRelease_keeps p
  | returnedGrant p => exact execReturnedGrant_keeps p
  | grant p => exact execGrant_keeps p
  | grantHistoryExpiry i => exact execGrantHistoryExpiry_keeps i
  | supplyTrip mv => exact Keeps.event (supplyMoves_keeps mv)
  | reArm mv => exact Keeps.event (supplyMoves_keeps mv)
  | trip => exact execTrip_keeps
  | tripCut p => exact execTripCut_keeps p
  | holdoffExpiry => exact execHoldoffExpiry_keeps
  | tripLevelChange => exact execTripLevelChange_keeps
  | headerReadComplete data => exact execHeaderReadComplete_keeps data
  | linkReadComplete link => exact execLinkReadComplete_keeps link
  | blockReadComplete data => exact execBlockReadComplete_keeps data
  | profileListReadComplete data => exact execProfileListReadComplete_keeps data
  | profileReplacement p => exact execProfileReplacement_keeps p
  | blockWriteComplete => exact execBlockWriteComplete_keeps
  | headerWriteComplete => exact execHeaderWriteComplete_keeps
  | accessFailure a => exact execAccessFailure_keeps a
  | slotWriteComplete => exact execSlotWriteComplete_keeps
  | inputLineChange n high => exact execInputLineChange_keeps n high
  | inputDebounceExpiry n => exact execInputDebounceExpiry_keeps n
  | tick => exact execTick_keeps
  | symbolAcknowledged p => exact execSymbolAcknowledged_keeps p
  | cameraStartMark p => exact execCameraStartMark_keeps p
  | cameraSymbolReceived p data parity => exact execCameraSymbolReceived_keeps p data parity

/-- A step takes the command at the front of the queue. -/
theorem step_keeps (h : step s = .next t) : Keeps s t := by
  unfold step at h
  split at h
  · cases h; exact .refl s
  · rename_i c rest _
    exact (Keeps.of_same rfl rfl rfl rfl rfl : Keeps s (s.withPending rest)).trans (exec_keeps c _ t h)

/-- Settles O57: each command keeps the three invariants, by the ports, the governor and the reader it touches. -/
theorem stepsKeepPortsAndRigSound : Obligations.StepsKeepPortsAndRigSound := by
  unfold Obligations.StepsKeepPortsAndRigSound
  intro s t h
  obtain ⟨hports, hrig, hqueues⟩ := step_keeps h
  exact ⟨hports, hrig, hqueues⟩

end Sys2Proof.Machine
end

section
/-! One In-flight entry: its status, the writes that finish it, the waiter lists that name it and the members that a
sweep has still to visit for it (R13, R144 to R146), through outcomes given and the operations of a port. -/

set_option Elab.async false

namespace Sys2Proof.Machine

variable {p : PortNo} {e : EntryNo} {s t u : State}

/-! ## Writes that finish an entry -/

/-- The access is a DONE or REFUSED write of entry `e`. -/
def Access.finalFor (e : EntryNo) (a : Access) : Bool :=
  match a with
  | .blockWrite w => w.entry == some e && w.form != .taken
  | _ => false

/-- The accesses of the walker, the one in progress first. -/
def Walker.allAccesses (w : Walker) : List Access := (w.current.map (·.access)).toList ++ w.accesses

/-- How many accesses of the walker finish entry `e`. -/
def Walker.finals (w : Walker) (e : EntryNo) : Nat := w.allAccesses.countP (Access.finalFor e)

theorem finalWrites_eq (s : State) (e : EntryNo) : s.finalWrites e = s.walker.finals e := rfl

theorem finals_append (w : Walker) (l : List Access) (e : EntryNo) :
    ({ w with accesses := w.accesses ++ l } : Walker).finals e = w.finals e + l.countP (Access.finalFor e) := by
  simp only [Walker.finals, Walker.allAccesses, ← List.append_assoc, List.countP_append]

theorem finalWrites_place (s : State) (a : Access) (e : EntryNo) :
    (s.place a).finalWrites e = s.finalWrites e + (a.finalFor e).toNat := by
  rw [finalWrites_eq, finalWrites_eq, State.place, setWalker_walker, finals_append]
  cases h : a.finalFor e <;> simp [h]

/-! ## An entry, its waiters and its sweep -/

/-- Port `p` is pending in an OPEN entry. -/
def pendsIn (o : Option Entry) (p : PortNo) : Bool :=
  match o with
  | some x => x.status == .opened && x.pending.get p
  | none => false

/-- Status, pending set and finishing writes agree (R144, R146); a `loose` entry may be OPEN with none pending, as in
the event that gives its last outcome. -/
def statusFits (loose : Bool) (n : Nat) : Option Entry → Prop
  | none => n = 0
  | some x =>
    match x.status with
    | .opened => (loose = true ∨ ∃ p, x.pending.get p = true) ∧ n = 0
    | .held => (∀ p, x.pending.get p = false) ∧ n = 1

/-- Entry `e` with `n` finishing writes agrees with the waiter lists `w` and the ports that a sweep owes it (R13). -/
structure EntryFit (e : EntryNo) (o : Option Entry) (n : Nat) (w : PortNo → List EntryNo) (owed : PortNo → Bool)
    (loose : Bool) : Prop where
  status : statusFits loose n o
  once : ∀ p, (w p).count e ≤ 1
  apart : ∀ p, e ∈ w p → owed p = false
  pends : ∀ p, pendsIn o p = (decide (e ∈ w p) || owed p)

/-- The waiter lists of the sixteen ports. -/
def State.waiting (s : State) (p : PortNo) : List EntryNo := (s.port p).waiters

/-- Entry `e` of a state, with the ports that a sweep owes it. -/
def State.fits (s : State) (e : EntryNo) (owed : PortNo → Bool) (loose : Bool) : Prop :=
  EntryFit e (s.entry e) (s.finalWrites e) s.waiting owed loose

theorem fits_congr {owed : PortNo → Bool} {loose : Bool} (he : t.entry e = s.entry e)
    (hf : t.finalWrites e = s.finalWrites e) (hw : ∀ p, (t.port p).waiters = (s.port p).waiters)
    (h : s.fits e owed loose) : t.fits e owed loose := by
  unfold State.fits at h ⊢
  rw [he, hf, show t.waiting = s.waiting from funext hw]
  exact h

namespace EntryFit

variable {o : Option Entry} {n : Nat} {w w' : PortNo → List EntryNo} {owed owed' : PortNo → Bool} {loose : Bool}

theorem statusFits_loosen (h : statusFits false n o) (loose : Bool) : statusFits loose n o := by
  cases o with
  | none => exact h
  | some x =>
    cases hst : x.status with
    | opened =>
      simp only [statusFits, hst] at h ⊢
      exact ⟨.inr (h.1.resolve_left Bool.false_ne_true), h.2⟩
    | held =>
      simp only [statusFits, hst] at h ⊢
      exact h

theorem loosen (h : EntryFit e o n w owed false) (loose : Bool) : EntryFit e o n w owed loose :=
  ⟨statusFits_loosen h.status loose, h.once, h.apart, h.pends⟩

/-- Other waiter lists in which the entry stands as often. -/
theorem relisted (h : EntryFit e o n w owed loose) (hc : ∀ p, (w' p).count e = (w p).count e) :
    EntryFit e o n w' owed loose := by
  have hmem : ∀ p, e ∈ w' p ↔ e ∈ w p := fun p => by
    rw [← List.count_pos_iff, ← List.count_pos_iff, hc p]
  exact ⟨h.status, fun p => (hc p).le.trans (h.once p), fun p hp => h.apart p ((hmem p).1 hp), fun p => by
    rw [h.pends p, decide_eq_decide.2 (hmem p)]⟩

/-- The port's outcome in the entry's record (R145). -/
def recorded (p : PortNo) (c : OutcomeCode) (x : Entry) : Entry :=
  { x with outcomes := x.outcomes.set p c, pending := x.pending.set p false }

/-- A pending port's outcome is recorded, and the port is neither waited for nor owed any more. -/
theorem answered {c : OutcomeCode} (h : EntryFit e o n w owed loose) (hp : pendsIn o p = true)
    (hw : ∀ q, q ≠ p → w' q = w q) (hwp : e ∉ w' p) (ho : ∀ q, q ≠ p → owed' q = owed q) (hop : owed' p = false) :
    EntryFit e (o.map (recorded p c)) n w' owed' true := by
  cases o with
  | none => cases hp
  | some x =>
    simp only [pendsIn, Bool.and_eq_true, beq_iff_eq] at hp
    have hstatus := h.status
    simp only [statusFits, hp.1] at hstatus
    refine ⟨?_, fun q => ?_, fun q hq => ?_, fun q => ?_⟩
    · simp only [Option.map_some, statusFits, recorded, hp.1]
      exact ⟨.inl trivial, hstatus.2⟩
    · by_cases hqp : q = p
      · rw [hqp, List.count_eq_zero.2 hwp]; exact Nat.zero_le _
      · rw [hw q hqp]; exact h.once q
    · by_cases hqp : q = p
      · rw [hqp] at hq; exact absurd hq hwp
      · rw [hw q hqp] at hq; rw [ho q hqp]; exact h.apart q hq
    · by_cases hqp : q = p
      · subst hqp
        rw [hop, decide_eq_false hwp]
        simp [pendsIn, recorded]
      · rw [hw q hqp, ho q hqp, ← h.pends q]
        simp [pendsIn, recorded, Table.get_set_ne _ _ hqp]

end EntryFit

/-! ## Outcomes recorded and entries finished -/

theorem recordOutcome_entry (s : State) (e d : EntryNo) (p : PortNo) (c : OutcomeCode) :
    (s.recordOutcome e p c).entry d = if d = e then (s.entry d).map (EntryFit.recorded p c) else s.entry d := by
  unfold State.recordOutcome
  by_cases hd : d = e
  · subst hd
    cases hx : s.entry d with
    | none => simp [hx]
    | some x => simp [entry_setEntry, EntryFit.recorded]
  · cases hx : s.entry e with
    | none => simp [hd]
    | some x => simp [entry_setEntry, hd]

/-- The entry is OPEN with none pending (R146). -/
def Entry.complete (x : Entry) : Prop := x.status = .opened ∧ ∀ p, x.pending.get p = false

theorem complete_iff (x : Entry) : (x.status = .opened ∧ x.pending.items.all (!·)) ↔ x.complete := by
  rw [Entry.complete, Table.all_iff]
  simp

theorem finishEntry_of_complete {x : Entry} (hx : s.entry e = some x) (hc : x.complete) :
    s.finishEntry e =
      (s.setEntry e (some { x with status := .held })).place
        (.blockWrite { address := x.block, form := .done x.outcomes, notify := x.notify, entry := some e, ofTake := false }) := by
  unfold State.finishEntry
  rw [hx]
  exact if_pos ((complete_iff x).2 hc)

theorem finishEntry_of_not (h : ∀ x, s.entry e = some x → ¬x.complete) : s.finishEntry e = s := by
  unfold State.finishEntry
  split
  · rfl
  · rename_i x hx
    exact if_neg fun hc => h x hx ((complete_iff x).1 hc)

theorem entry_place (s : State) (a : Access) (d : EntryNo) : (s.place a).entry d = s.entry d := rfl

theorem finalWrites_setEntry (s : State) (e d : EntryNo) (x : Option Entry) :
    (s.setEntry e x).finalWrites d = s.finalWrites d := rfl

/-- Finishing one entry leaves the others alone. -/
theorem finishEntry_other {d : EntryNo} (h : d ≠ e) :
    (s.finishEntry e).entry d = s.entry d ∧ (s.finishEntry e).finalWrites d = s.finalWrites d := by
  by_cases hc : ∃ x, s.entry e = some x ∧ x.complete
  · obtain ⟨x, hx, hc⟩ := hc
    rw [finishEntry_of_complete hx hc, entry_place, entry_setEntry, if_neg h, finalWrites_place, finalWrites_setEntry]
    have hne : (Access.blockWrite { address := x.block, form := .done x.outcomes, notify := x.notify
                                    entry := some e, ofTake := false }).finalFor d = false := by
      simp [Access.finalFor, Ne.symm h]
    rw [hne]
    exact ⟨rfl, rfl⟩
  · rw [finishEntry_of_not fun x hx hx' => hc ⟨x, hx, hx'⟩]
    exact ⟨rfl, rfl⟩

/-- An entry that may be complete is finished if it is. -/
theorem finishEntry_fit {w : PortNo → List EntryNo} {owed : PortNo → Bool}
    (h : EntryFit e (s.entry e) (s.finalWrites e) w owed true) :
    EntryFit e ((s.finishEntry e).entry e) ((s.finishEntry e).finalWrites e) w owed false := by
  by_cases hc : ∃ x, s.entry e = some x ∧ x.complete
  · obtain ⟨x, hx, hc⟩ := hc
    have hstatus := h.status
    rw [hx] at hstatus
    simp only [statusFits, hc.1] at hstatus
    rw [finishEntry_of_complete hx hc, entry_place, entry_setEntry, if_pos rfl, finalWrites_place, finalWrites_setEntry,
      hstatus.2]
    refine ⟨⟨hc.2, by simp [Access.finalFor]⟩, h.once, h.apart, fun p => ?_⟩
    rw [← h.pends p, hx]
    simp [pendsIn, hc.1, hc.2]
  · rw [finishEntry_of_not fun x hx hx' => hc ⟨x, hx, hx'⟩]
    refine ⟨?_, h.once, h.apart, h.pends⟩
    have hstatus := h.status
    cases hx : s.entry e with
    | none => rw [hx] at hstatus; exact hstatus
    | some x =>
      rw [hx] at hstatus
      cases hst : x.status with
      | opened =>
        simp only [statusFits, hst] at hstatus ⊢
        refine ⟨.inr ?_, hstatus.2⟩
        by_contra hnone
        exact hc ⟨x, hx, hst, fun p => by simpa using fun hp => hnone ⟨p, hp⟩⟩
      | held =>
        simp only [statusFits, hst] at hstatus ⊢
        exact hstatus

/-! ## Outcomes given to waiters (R145) -/

theorem recordOutcome_finalWrites (s : State) (e d : EntryNo) (p : PortNo) (c : OutcomeCode) :
    (s.recordOutcome e p c).finalWrites d = s.finalWrites d := by
  rw [finalWrites_eq, finalWrites_eq, recordOutcome_walker]

/-- Outcomes given along a waiter list leave an entry that agreed with the list in agreement with none. -/
theorem giveEach_fit {w : PortNo → List EntryNo} {owed : PortNo → Bool} {loose : Bool} (c : OutcomeCode)
    (l : List EntryNo) (s : State)
    (h : EntryFit e (s.entry e) (s.finalWrites e) (Function.update w p l) owed loose) :
    EntryFit e ((giveEach p c l s).entry e) ((giveEach p c l s).finalWrites e) (Function.update w p []) owed loose := by
  induction l generalizing s with
  | nil => exact h
  | cons d rest ih =>
    refine ih _ ?_
    have hothers : ∀ q, q ≠ p → Function.update w p rest q = Function.update w p (d :: rest) q := fun q hq => by
      rw [Function.update_of_ne hq, Function.update_of_ne hq]
    by_cases hd : d = e
    · subst hd
      have hin : d ∈ Function.update w p (d :: rest) p := by rw [Function.update_self]; exact List.mem_cons_self ..
      have hone := h.once p
      rw [Function.update_self, List.count_cons_self] at hone
      have hnot : d ∉ Function.update w p rest p := by
        rw [Function.update_self, ← List.count_eq_zero]; omega
      have hrec := h.answered (c := c) (owed' := owed) (by rw [h.pends p, decide_eq_true hin, Bool.true_or]) hothers hnot
        (fun _ _ => rfl) (h.apart p hin)
      refine (finishEntry_fit (s := s.recordOutcome d p c) ?_).loosen loose
      rw [recordOutcome_entry, if_pos rfl, recordOutcome_finalWrites]
      exact hrec
    · obtain ⟨hentry, hfinal⟩ := finishEntry_other (s := s.recordOutcome d p c) (Ne.symm hd)
      rw [State.giveOutcome, hentry, hfinal, recordOutcome_entry, if_neg (Ne.symm hd), recordOutcome_finalWrites]
      refine h.relisted fun q => ?_
      by_cases hq : q = p
      · subst hq
        rw [Function.update_self, Function.update_self, List.count_cons_of_ne hd]
      · rw [hothers q hq]

theorem giveAll_fits {owed : PortNo → Bool} {loose : Bool} (c : OutcomeCode) (h : s.fits e owed loose) :
    (s.giveAll p c).fits e owed loose := by
  have hwaiting : (s.giveAll p c).waiting = Function.update s.waiting p [] := by
    funext q
    unfold State.waiting
    by_cases hq : q = p
    · subst hq; rw [Function.update_self, giveAll_port_self]
    · rw [Function.update_of_ne hq, giveAll_port_ne _ _ hq]
  unfold State.fits
  rw [hwaiting]
  refine giveEach_fit c (s.port p).waiters _ ?_
  rw [show Function.update s.waiting p (s.port p).waiters = s.waiting from Function.update_eq_self p s.waiting]
  exact h

/-- The operations of a port keep every entry in agreement. -/
theorem PortRun.fits {gives : Bool} {owed : PortNo → Bool} {loose : Bool} (hr : PortRun p gives s t)
    (h : s.fits e owed loose) : t.fits e owed loose := by
  induction hr with
  | refl => exact h
  | modPort _ f hf ih =>
    rename_i t' _
    refine fits_congr (s := t') (t := t'.modPort p f) rfl rfl (fun q => ?_) ih
    by_cases hq : q = p
    · subst hq; rw [port_modPort_self, hf]
    · rw [port_modPort_ne _ _ hq]
  | raise _ c ih => exact fits_congr rfl rfl (fun _ => rfl) ih
  | post _ ih =>
    exact fits_congr (entry_congr (by simp) e) (by rw [finalWrites_eq, finalWrites_eq, post_walker]) (fun q => by simp) ih
  | emit _ a ih => exact fits_congr rfl rfl (fun _ => rfl) ih
  | giveAll _ _ o ih => exact giveAll_fits o ih

end Sys2Proof.Machine
end

section
/-! The invariant of requests in flight taken apart, with the slack that a visit needs inside its event: one entry that
may be complete and not yet finished, one record whose beat has come (R144, R146, R160). -/

set_option Elab.async false

namespace Sys2Proof.Machine

variable {p : PortNo} {e : EntryNo} {r : SweepNo} {s t u : State}

/-! ## Groups and sweeps -/

/-- A definition has 1 to 16 distinct members and a lead among them (R155). -/
structure GroupDef.Regular (d : GroupDef) : Prop where
  some_member : 1 ≤ d.members.length
  not_many : d.members.length ≤ 16
  lead : d.lead < d.members.length
  distinct : d.members.Nodup

/-- A group that is not defined has no sweep; a defined one is regular. -/
def Group.defined (x : Group) : Prop :=
  match x.defn with
  | none => x.active = 0
  | some d => d.Regular

theorem groupSound_iff (s : State) (g : GroupNo) :
    s.groupSound g = true ↔ (s.group g).active = s.sweepsOf g ∧ (s.group g).defined := by
  unfold State.groupSound Group.defined
  rw [Bool.and_eq_true, beq_iff_eq]
  refine and_congr Iff.rfl ?_
  cases (s.group g).defn with
  | none => exact beq_iff_eq
  | some d =>
    simp only [Bool.and_eq_true, decide_eq_true_eq]
    exact ⟨fun ⟨⟨⟨h₁, h₂⟩, h₃⟩, h₄⟩ => ⟨h₁, h₂, h₃, h₄⟩, fun ⟨h₁, h₂, h₃, h₄⟩ => ⟨⟨⟨h₁, h₂⟩, h₃⟩, h₄⟩⟩

/-- A sweep of a group of `n` members has members left to visit, and its cursor names a place of the list. -/
structure Sweep.Placed (x : Sweep) (n : Nat) : Prop where
  left : 1 ≤ x.remaining
  within : x.remaining ≤ n
  cursor : x.cursor < n

/-- The sweep waits for a beat. -/
def Sweep.Waits (x : Sweep) : Prop := 1 ≤ x.beatsUntil ∧ x.beatsUntil ≤ x.stagger

theorem sweepSound_iff (s : State) (x : Sweep) :
    s.sweepSound x = true ↔ x.Placed (s.members x.group).length ∧ x.Waits := by
  unfold State.sweepSound Sweep.Waits
  simp only [Bool.and_eq_true, decide_eq_true_eq]
  exact ⟨fun ⟨⟨⟨⟨h₁, h₂⟩, h₃⟩, h₄⟩, h₅⟩ => ⟨⟨h₁, h₂, h₃⟩, h₄, h₅⟩, fun ⟨⟨h₁, h₂, h₃⟩, h₄, h₅⟩ => ⟨⟨⟨⟨h₁, h₂⟩, h₃⟩, h₄⟩, h₅⟩⟩

/-- No two records hold sweeps of one request. -/
def State.sweepsApart (s : State) : Prop :=
  ∀ e r q x y, s.sweep r = some x → s.sweep q = some y → x.origin = .request e → y.origin = .request e → r = q

theorem ref_eq_some {o : Origin} : o.ref = some e ↔ o = .request e := by
  cases o <;> simp [Origin.ref]

/-- The entry whose sweep record `r` holds, if it is a request's. -/
def State.entryOf (s : State) (r : SweepNo) : Option EntryNo :=
  match s.sweep r with
  | some x => x.origin.ref
  | none => none

theorem entryOf_eq_some : s.entryOf r = some e ↔ ∃ x, s.sweep r = some x ∧ x.origin = .request e := by
  unfold State.entryOf
  cases s.sweep r <;> simp [ref_eq_some]

/-- The entries of two records differ. -/
def State.entriesDiffer (s : State) (r q : SweepNo) : Prop :=
  ∀ e, s.entryOf r = some e → ∀ d, s.entryOf q = some d → e ≠ d

theorem sweepEntries_nodup_iff (s : State) : s.sweepEntries.Nodup ↔ s.sweepsApart := by
  have hpairs : s.sweepEntries.Nodup ↔ allSweeps.Pairwise s.entriesDiffer := List.pairwise_filterMap
  have hsymm : Std.Symm s.entriesDiffer := ⟨fun a b hab d hd d' hd' => (hab d' hd' d hd).symm⟩
  rw [hpairs]
  constructor
  · intro h e r q x y hx hy hxe hye
    by_contra hne
    refine h.forall (mem_allSweeps r) (mem_allSweeps q) hne e ?_ e ?_ rfl
    · exact entryOf_eq_some.2 ⟨x, hx, hxe⟩
    · exact entryOf_eq_some.2 ⟨y, hy, hye⟩
  · refine fun h => List.Nodup.pairwise_of_forall_ne (by decide) fun r _ q _ hne e he d hd hed => hne ?_
    subst hed
    obtain ⟨x, hx, hxe⟩ := entryOf_eq_some.1 he
    obtain ⟨y, hy, hye⟩ := entryOf_eq_some.1 hd
    exact h e r q x y hx hy hxe hye

theorem sweepOwes_iff (s : State) (e : EntryNo) (p : PortNo) :
    s.sweepOwes e p = true ↔ ∃ r x, s.sweep r = some x ∧ x.origin = .request e ∧ p ∈ s.unvisited x := by
  simp only [State.sweepOwes, List.any_eq_true, Option.any_eq_true, Bool.and_eq_true, beq_iff_eq, decide_eq_true_eq]
  exact ⟨fun ⟨r, _, x, h⟩ => ⟨r, x, h⟩, fun ⟨r, x, h⟩ => ⟨r, mem_allSweeps r, x, h⟩⟩

/-- With no two sweeps of one request, a sweep of the request owes what it has not visited. -/
theorem sweepOwes_of_sweep (h : s.sweepsApart) {x : Sweep} (hx : s.sweep r = some x) (he : x.origin = .request e)
    (p : PortNo) : s.sweepOwes e p = decide (p ∈ s.unvisited x) := by
  rw [Bool.eq_iff_iff, sweepOwes_iff, decide_eq_true_eq]
  refine ⟨fun ⟨q, y, hy, hye, hp⟩ => ?_, fun hp => ⟨r, x, hx, he, hp⟩⟩
  obtain rfl := h e r q x y hx hy he hye
  rw [hx] at hy
  cases hy
  exact hp

theorem sweepOwes_of_none (h : ∀ r x, s.sweep r = some x → x.origin ≠ .request e) (p : PortNo) :
    s.sweepOwes e p = false := by
  rw [Bool.eq_false_iff]
  intro hp
  obtain ⟨r, x, hx, hxe, -⟩ := (sweepOwes_iff s e p).1 hp
  exact h r x hx hxe

theorem members_congr (hg : t.groups = s.groups) (g : GroupNo) : t.members g = s.members g := by
  unfold State.members State.group; rw [hg]

theorem unvisited_congr (hm : ∀ g, t.members g = s.members g) (x : Sweep) : t.unvisited x = s.unvisited x := by
  unfold State.unvisited; rw [hm]

/-! ## The invariant -/

/-- The invariant of requests in flight, where entry `loose` may be complete and not finished, and the sweep of record
`busy` has come to its beat. -/
structure InFlight (s : State) (loose : Option EntryNo) (busy : Option SweepNo) : Prop where
  groups : ∀ g, s.groupSound g = true
  placed : ∀ r x, s.sweep r = some x → x.Placed (s.members x.group).length
  waits : ∀ r x, s.sweep r = some x → busy ≠ some r → x.Waits
  apart : s.sweepsApart
  entries : ∀ e, s.fits e (s.sweepOwes e) (decide (loose = some e))

theorem any_pending_iff (t : Table Bool 16) : t.items.any id = true ↔ ∃ p, t.get p = true := by
  have hall := Table.all_iff t (!·)
  rw [← List.not_any_eq_all_not, Bool.not_eq_true'] at hall
  rw [← not_iff_not, Bool.not_eq_true, not_exists]
  exact hall.trans (forall_congr' fun p => by cases t.get p <;> simp)

theorem entrySound_iff (s : State) (e : EntryNo) :
    s.entrySound e = true ↔ statusFits false (s.finalWrites e) (s.entry e) := by
  unfold State.entrySound
  cases s.entry e with
  | none => exact beq_iff_eq
  | some x =>
    cases hst : x.status with
    | opened =>
      simp only [hst, statusFits, Bool.and_eq_true, beq_iff_eq, Bool.false_eq_true, false_or]
      exact and_congr (any_pending_iff x.pending) Iff.rfl
    | held =>
      simp only [hst, statusFits, Bool.and_eq_true, beq_iff_eq, Table.all_iff]
      simp

theorem waitSound_iff (s : State) (e : EntryNo) (p : PortNo) :
    s.waitSound e p = true ↔
      (s.waiting p).count e ≤ 1 ∧ (e ∈ s.waiting p → s.sweepOwes e p = false) ∧
        pendsIn (s.entry e) p = (decide (e ∈ s.waiting p) || s.sweepOwes e p) := by
  have hpends : s.pendsOn e p = pendsIn (s.entry e) p := rfl
  unfold State.waitSound
  rw [hpends, Bool.and_eq_true, Bool.and_eq_true, decide_eq_true_eq, beq_iff_eq, and_assoc]
  refine and_congr Iff.rfl (and_congr ?_ Iff.rfl)
  cases s.sweepOwes e p <;> simp [State.waiting]

theorem requestsSound_iff (s : State) : s.requestsSound = true ↔ InFlight s none none := by
  unfold State.requestsSound
  rw [Bool.and_eq_true, Bool.and_eq_true, poolSound_iff, decide_eq_true_eq, sweepEntries_nodup_iff, List.all_eq_true]
  constructor
  · rintro ⟨⟨⟨hgroups, hsweeps⟩, hapart⟩, hentries⟩
    refine ⟨hgroups, fun r x hx => ((sweepSound_iff s x).1 (hsweeps r x hx)).1,
      fun r x hx _ => ((sweepSound_iff s x).1 (hsweeps r x hx)).2, hapart, fun e => ?_⟩
    obtain ⟨hentry, hwaits⟩ := Bool.and_eq_true_iff.1 (hentries e (by fin_cases e <;> decide))
    have hwait := fun p => (waitSound_iff s e p).1 (List.all_eq_true.1 hwaits p (mem_allPorts p))
    exact ⟨(entrySound_iff s e).1 hentry, fun p => (hwait p).1, fun p => (hwait p).2.1, fun p => (hwait p).2.2⟩
  · rintro ⟨hgroups, hplaced, hwaits, hapart, hentries⟩
    refine ⟨⟨⟨hgroups, fun r x hx => (sweepSound_iff s x).2 ⟨hplaced r x hx, hwaits r x hx nofun⟩⟩, hapart⟩,
      fun e _ => ?_⟩
    obtain ⟨hstatus, honce, hsep, hpends⟩ := hentries e
    refine Bool.and_eq_true_iff.2 ⟨(entrySound_iff s e).2 hstatus, List.all_eq_true.2 fun p _ => ?_⟩
    exact (waitSound_iff s e p).2 ⟨honce p, hsep p, hpends p⟩

theorem InFlight.regular {loose : Option EntryNo} {busy : Option SweepNo} (h : InFlight s loose busy) {g : GroupNo}
    {d : GroupDef} (hd : (s.group g).defn = some d) : d.Regular := by
  have hdefined := ((groupSound_iff s g).1 (h.groups g)).2
  unfold Group.defined at hdefined
  rw [hd] at hdefined
  exact hdefined

theorem members_of_defn {g : GroupNo} {d : GroupDef} (hd : (s.group g).defn = some d) : s.members g = d.members := by
  unfold State.members; rw [hd]; rfl

/-- The members of a group are distinct, also those of none. -/
theorem InFlight.members_nodup {loose : Option EntryNo} {busy : Option SweepNo} (h : InFlight s loose busy)
    (g : GroupNo) : (s.members g).Nodup := by
  cases hd : (s.group g).defn with
  | none => unfold State.members; rw [hd]; exact List.nodup_nil
  | some d => rw [members_of_defn hd]; exact (h.regular hd).distinct

/-- In a state where all is in order no entry is complete. -/
theorem InFlight.loosen {busy : Option SweepNo} (h : InFlight s none busy) (loose : Option EntryNo) :
    InFlight s loose busy :=
  ⟨h.groups, h.placed, h.waits, h.apart, fun e => (h.entries e).loosen _⟩

theorem sweepOwes_congr (hg : t.groups = s.groups) (hp : t.pool = s.pool) (e : EntryNo) :
    t.sweepOwes e = s.sweepOwes e := by
  funext p
  unfold State.sweepOwes State.sweep
  rw [hp]
  simp only [unvisited_congr (members_congr hg)]

/-- With groups and sweeps as they were, what is left to show is about the entries. -/
theorem InFlight.framed {loose loose' : Option EntryNo} {busy : Option SweepNo} (h : InFlight s loose busy)
    (hg : t.groups = s.groups) (hp : t.pool = s.pool)
    (he : ∀ e, s.fits e (s.sweepOwes e) (decide (loose = some e)) → t.fits e (s.sweepOwes e) (decide (loose' = some e))) :
    InFlight t loose' busy := by
  have hsweep : ∀ r, t.sweep r = s.sweep r := fun r => by unfold State.sweep; rw [hp]
  have hgroup : ∀ g, t.group g = s.group g := fun g => by unfold State.group; rw [hg]
  refine ⟨fun g => ?_, fun r x hx => ?_, fun r x hx => ?_, fun e r q x y hx hy => ?_, fun e => ?_⟩
  · rw [groupSound_iff, hgroup, sweepsOf_congr hp]
    exact (groupSound_iff s g).1 (h.groups g)
  · rw [members_congr hg]
    exact h.placed r x (by rw [← hsweep]; exact hx)
  · exact h.waits r x (by rw [← hsweep]; exact hx)
  · rw [hsweep] at hx hy
    exact h.apart e r q x y hx hy
  · rw [sweepOwes_congr hg hp]
    exact he e (h.entries e)

/-- The finishing of an entry that may be complete (R146). -/
theorem InFlight.finishEntry {busy : Option SweepNo} (h : InFlight s (some e) busy) :
    InFlight (s.finishEntry e) none busy := by
  refine h.framed (by simp) (by simp) fun d hd => ?_
  have hports : (s.finishEntry e).waiting = s.waiting := funext fun p => by simp [State.waiting]
  unfold State.fits at hd ⊢
  rw [hports]
  by_cases hde : d = e
  · subst hde
    rw [decide_eq_true rfl] at hd
    exact finishEntry_fit hd
  · obtain ⟨hentry, hfinal⟩ := finishEntry_other (s := s) hde
    rw [decide_eq_false fun h => hde (Option.some.inj h).symm] at hd
    rw [hentry, hfinal]
    exact hd

end Sys2Proof.Machine
end

section
/-! What leaves the Group Table and the Sweep Pool alone and keeps waiter lists, entries and finishing writes in
agreement (R13, R145, R146): the operations of a port, of the walker and of what ends every event. -/

set_option Elab.async false

namespace Sys2Proof.Machine

variable {p : PortNo} {e : EntryNo} {k : Option EntryNo} {s t u : State}

/-- From `s` to `t` groups and sweeps stay, and every entry but `k` stays in agreement, whatever a sweep owes it. -/
structure Serves (k : Option EntryNo) (s t : State) : Prop where
  groups : t.groups = s.groups
  pool : t.pool = s.pool
  fits : ∀ e owed loose, k ≠ some e → s.fits e owed loose → t.fits e owed loose

theorem InFlight.serves {loose : Option EntryNo} {busy : Option SweepNo} (h : InFlight s loose busy)
    (hs : Serves none s t) : InFlight t loose busy :=
  h.framed hs.groups hs.pool fun e he => hs.fits e _ _ nofun he

namespace Serves

theorem refl (k : Option EntryNo) (s : State) : Serves k s s := ⟨rfl, rfl, fun _ _ _ _ h => h⟩

theorem trans (h : Serves k s t) (g : Serves k t u) : Serves k s u :=
  ⟨g.groups.trans h.groups, g.pool.trans h.pool, fun e o l he hf => g.fits e o l he (h.fits e o l he hf)⟩

/-- What serves every entry serves all but one. -/
theorem all_but (h : Serves none s t) (k : Option EntryNo) : Serves k s t :=
  ⟨h.groups, h.pool, fun e o l _ hf => h.fits e o l nofun hf⟩

theorem of_same (hg : t.groups = s.groups) (hp : t.pool = s.pool) (he : t.inflight = s.inflight)
    (hf : ∀ e, t.walker.finals e = s.walker.finals e) (hw : ∀ p, (t.port p).waiters = (s.port p).waiters) :
    Serves k s t :=
  ⟨hg, hp, fun e _ _ _ h => fits_congr (entry_congr he e) (hf e) hw h⟩

/-- Nothing changes that the agreement reads. -/
theorem of_ports (hg : t.groups = s.groups) (hp : t.pool = s.pool) (he : t.inflight = s.inflight)
    (hf : t.walker = s.walker) (hw : t.ports = s.ports) : Serves k s t :=
  of_same hg hp he (fun e => by rw [hf]) fun q => by rw [port_congr hw]

theorem setGovernor (h : Serves k s t) (g : Governor) : Serves k s (t.setGovernor g) :=
  h.trans (of_ports rfl rfl rfl rfl rfl)

theorem setMonitor (h : Serves k s t) (m : Monitor) : Serves k s (t.setMonitor m) :=
  h.trans (of_ports rfl rfl rfl rfl rfl)

theorem setReader (h : Serves k s t) (r : Reader) : Serves k s (t.setReader r) :=
  h.trans (of_ports rfl rfl rfl rfl rfl)

theorem setRegs (h : Serves k s t) (r : Registers) : Serves k s (t.setRegs r) :=
  h.trans (of_ports rfl rfl rfl rfl rfl)

theorem setWriter (h : Serves k s t) (w : Writer) : Serves k s (t.setWriter w) :=
  h.trans (of_ports rfl rfl rfl rfl rfl)

theorem setLine (h : Serves k s t) (n : LineNo) (l : Line) : Serves k s (t.setLine n l) :=
  h.trans (of_ports rfl rfl rfl rfl rfl)

theorem setBinding (h : Serves k s t) (n : LineNo) (b : Option Binding) : Serves k s (t.setBinding n b) :=
  h.trans (of_ports rfl rfl rfl rfl rfl)

theorem raise (h : Serves k s t) (c : Cause) : Serves k s (t.raise c) :=
  h.trans (of_ports rfl rfl rfl rfl rfl)

theorem emit (h : Serves k s t) (a : List WireAct) : Serves k s (t.emit a) :=
  h.trans (of_ports rfl rfl rfl rfl rfl)

theorem post (h : Serves k s t) (x : Slot) : Serves k s (t.post x) :=
  h.trans (of_ports (by simp) (by simp) (by simp) (by simp) (by simp))

/-- The record of a port changes, but for its waiter list. -/
theorem modPort (h : Serves k s t) (p : PortNo) {f : Port → Port}
    (hf : ∀ x, (f x).waiters = x.waiters := by exact fun _ => rfl) : Serves k s (t.modPort p f) := by
  refine h.trans (of_same rfl rfl rfl (fun _ => rfl) fun q => ?_)
  by_cases hq : q = p
  · subst hq; rw [port_modPort_self, hf]
  · rw [port_modPort_ne _ _ hq]

/-- The walker changes, but for how many finishing writes it holds. -/
theorem setWalker (h : Serves k s t) {w : Walker} (hw : ∀ e, w.finals e = t.walker.finals e) :
    Serves k s (t.setWalker w) :=
  h.trans (of_same rfl rfl rfl hw fun _ => rfl)

/-- The walker changes, but for its accesses. -/
theorem setWalkerState (h : Serves k s t) {w : Walker} (ha : w.accesses = t.walker.accesses := by exact rfl)
    (hc : w.current = t.walker.current := by exact rfl) : Serves k s (t.setWalker w) :=
  h.setWalker fun e => by unfold Walker.finals Walker.allAccesses; rw [ha, hc]

/-- An access is placed that finishes no entry. -/
theorem place (h : Serves k s t) {a : Access} (ha : ∀ e, a.finalFor e = false := by exact fun _ => rfl) :
    Serves k s (t.place a) :=
  h.setWalker fun e => by rw [finals_append]; simp [ha e]

theorem placeHeaderWrite (h : Serves k s t) : Serves k s t.placeHeaderWrite := by
  unfold State.placeHeaderWrite
  split
  · exact h
  · exact h.place

theorem run {gives : Bool} (h : Serves k s t) (hr : PortRun p gives t u) : Serves k s u :=
  h.trans
    { groups := hr.portStep.rig.2.2.1.1
      pool := hr.portStep.rig.2.2.1.2.1
      fits := fun _ _ _ _ hf => hr.fits hf }

theorem drawStamp (h : Serves k s t) (p : PortNo) : Serves k s (t.drawStamp p) := by
  refine h.trans (of_same rfl rfl rfl (fun _ => rfl) fun q => ?_)
  by_cases hq : q = p
  · subst hq; rw [drawStamp_port]
  · exact congrArg Port.waiters (port_modPort_ne _ _ hq)

theorem atPort {f : State → State} (h : Serves k s (f t)) : Serves k s (t.atPort p f) :=
  h.trans (of_ports (by simp) (by simp) (by simp) (by simp) (by simp))

end Serves

/-! ## The end of an event -/

theorem busAccess_access (a : Access) (s : State) : (busAccess a s).access = a := by
  cases a <;> rfl

theorem finals_eq (w : Walker) (e : EntryNo) :
    w.finals e = (w.current.elim 0 fun b => (b.access.finalFor e).toNat) + w.accesses.countP (Access.finalFor e) := by
  unfold Walker.finals Walker.allAccesses
  rw [List.countP_append]
  cases w.current with
  | none => rfl
  | some b => cases hb : b.access.finalFor e <;> simp [hb]

theorem beginAccess_serves (s : State) : Serves k s (beginAccess s) := by
  unfold beginAccess
  split
  · rename_i a rest hcur hacc
    split
    · refine (Serves.refl k s).setWalker fun e => ?_
      rw [finals_eq, finals_eq, hcur, hacc, Option.elim_some, Option.elim_none, busAccess_access, List.countP_cons]
      cases a.finalFor e <;> simp [Nat.add_comm]
    · exact .refl k s
  · exact .refl k s

namespace Serves

/-- What ends every event. -/
theorem settle (h : Serves k s t) : Serves k s (settle t) := by
  have hdetach : Serves k s (finishDetach t) := by
    unfold finishDetach
    split
    · exact h.setWalkerState.raise _
    · exact h
  refine (hdetach.trans ?_).trans (beginAccess_serves _)
  exact of_ports (by simp) (by simp) (by simp) (by simp) (by simp)

theorem quiet (s : State) : Serves k s s.quiet := of_ports rfl rfl rfl rfl rfl

/-! ## The walker -/

theorem enterWatching (h : Serves k s t) : Serves k s (enterWatching t) := by
  unfold Machine.enterWatching
  dsimp only
  split
  · exact h.setWalkerState.setWalkerState.place
  · exact h.setWalkerState

theorem nudgeWalker (h : Serves k s t) : Serves k s (nudgeWalker t) := by
  unfold Machine.nudgeWalker
  split
  · split
    · exact h.setWalkerState
    · exact h.place
  · exact h.setWalkerState
  · exact h.setWalkerState
  · exact h

theorem pollWalker (h : Serves k s t) : Serves k s (pollWalker t) := by
  unfold Machine.pollWalker
  split
  · exact h.place
  · exact h

/-- A read finishes no entry. -/
theorem finalFor_of_read {a : Access} (h : a.isRead = true) (e : EntryNo) : a.finalFor e = false := by
  cases a with
  | blockWrite _ => cases h
  | _ => rfl

/-- An entry to HALTED keeps every write (R126). -/
theorem haltWalker (h : Serves k s t) (r : HaltReason) : Serves k s (haltWalker r t) := by
  refine (h.setWalker fun e => ?_).raise _
  rw [finals_eq, finals_eq]
  congr 1
  · cases t.walker.current <;> rfl
  · rw [List.countP_filter]
    refine List.countP_congr fun a _ => ?_
    cases hr : a.isRead <;> simp [finalFor_of_read, hr]

theorem attachWalker (h : Serves k s t) : Serves k s (attachWalker t) := by
  unfold Machine.attachWalker
  dsimp only
  have hgo : Serves k s (if t.walker.hasHeaderRead then t
      else if boardBaseBad t.regs.boardBase then Machine.haltWalker .badHeader t
      else t.setWalker { t.walker with accesses := .headerRead t.regs.boardBase :: t.walker.accesses }) := by
    split_ifs
    · exact h
    · exact h.haltWalker _
    · refine h.setWalker fun e => ?_
      rw [finals_eq, finals_eq, List.countP_cons]
      rfl
  split
  · exact hgo
  · exact hgo
  · exact h

theorem detachWalker (h : Serves k s t) : Serves k s (detachWalker t) := by
  unfold Machine.detachWalker
  dsimp only
  split
  · exact h.setWalkerState
  · exact h.setWalkerState
  · exact h.setWalkerState
  · exact h

theorem landParts (h : Serves k s t) (parts : List (Addr × List Byte)) : Serves k s (landParts parts t) := h.emit _

/-- The end of an access that finishes no entry. -/
theorem endAccess {b : BusAccess} (h : Serves k s t) (hb : t.walker.current = some b)
    (hf : ∀ e, b.access.finalFor e = false) : Serves k s (endAccess t) := by
  refine h.setWalker fun e => ?_
  rw [finals_eq, finals_eq, hb, Option.elim_some, hf e]
  rfl

end Serves

/-! ## What a port does to entries that it does not list -/

/-- Outcomes given along a list leave the entries alone that it does not name. -/
theorem giveEach_unlisted (c : OutcomeCode) (l : List EntryNo) (s : State) (he : e ∉ l) :
    (giveEach p c l s).entry e = s.entry e ∧ (giveEach p c l s).finalWrites e = s.finalWrites e := by
  induction l generalizing s with
  | nil => exact ⟨rfl, rfl⟩
  | cons d rest ih =>
    obtain ⟨hd, hrest⟩ := not_or.1 (mt List.mem_cons.2 he)
    obtain ⟨hentry, hfinal⟩ := ih (s.giveOutcome d p c) hrest
    obtain ⟨hentry', hfinal'⟩ := finishEntry_other (s := s.recordOutcome d p c) hd
    refine ⟨hentry.trans (hentry'.trans ?_), hfinal.trans (hfinal'.trans ?_)⟩
    · rw [recordOutcome_entry, if_neg hd]
    · rw [recordOutcome_finalWrites]

/-- Port `p` acts: every entry stays in agreement, other waiter lists stay, and an entry that waits for nothing at this
port stays as it is and does not begin to wait. -/
structure Acts (p : PortNo) (s t : State) : Prop where
  serves : Serves none s t
  others : ∀ q, q ≠ p → t.waiting q = s.waiting q
  unlisted : ∀ e, e ∉ s.waiting p →
    t.entry e = s.entry e ∧ t.finalWrites e = s.finalWrites e ∧ e ∉ t.waiting p

namespace Acts

theorem trans (h : Acts p s t) (g : Acts p t u) : Acts p s u := by
  refine ⟨h.serves.trans g.serves, fun q hq => (g.others q hq).trans (h.others q hq), fun e he => ?_⟩
  obtain ⟨hentry, hfinal, hnot⟩ := h.unlisted e he
  obtain ⟨hentry', hfinal', hnot'⟩ := g.unlisted e hnot
  exact ⟨hentry'.trans hentry, hfinal'.trans hfinal, hnot'⟩

theorem of_same (hg : t.groups = s.groups) (hp : t.pool = s.pool) (he : t.inflight = s.inflight)
    (hf : t.walker = s.walker) (hw : ∀ p, (t.port p).waiters = (s.port p).waiters) : Acts p s t := by
  refine ⟨.of_same hg hp he (fun e => by rw [hf]) hw, fun q _ => hw q, fun e hne => ⟨entry_congr he e, ?_, ?_⟩⟩
  · rw [finalWrites_eq, finalWrites_eq, hf]
  · unfold State.waiting at hne ⊢; rwa [hw]

theorem drawStamp (s : State) : Acts p s (s.drawStamp p) := by
  refine of_same rfl rfl rfl rfl fun q => ?_
  by_cases hq : q = p
  · subst hq; rw [drawStamp_port]
  · exact congrArg Port.waiters (port_modPort_ne _ _ hq)

theorem of_run {gives : Bool} (hr : PortRun p gives s t) : Acts p s t := by
  refine ⟨(Serves.refl none s).run hr, fun q hq => ?_, fun e he => ?_⟩
  · exact congrArg Port.waiters (hr.portStep.others q hq)
  · induction hr with
    | refl => exact ⟨rfl, rfl, he⟩
    | modPort _ f hf ih =>
      refine ⟨ih.1, ih.2.1, ?_⟩
      unfold State.waiting
      rw [port_modPort_self, hf]
      exact ih.2.2
    | raise _ c ih => exact ih
    | post _ ih =>
      obtain ⟨hentry, hfinal, hnot⟩ := ih
      refine ⟨(entry_congr (by simp) e).trans hentry, ?_, ?_⟩
      · rw [← hfinal, finalWrites_eq, finalWrites_eq, post_walker]
      · unfold State.waiting at hnot ⊢; rwa [port_post]
    | emit _ a ih => exact ih
    | @giveAll v _ _ c ih =>
      obtain ⟨hentry, hfinal, hnot⟩ := ih
      obtain ⟨hentry', hfinal'⟩ := giveEach_unlisted (p := p) c (v.port p).waiters
        (v.modPort p fun x => { x with waiters := [] }) hnot
      refine ⟨hentry'.trans hentry, hfinal'.trans hfinal, ?_⟩
      unfold State.waiting
      rw [giveAll_port_self]
      exact List.not_mem_nil

end Acts

end Sys2Proof.Machine
end

section
/-! The events of ports, governor, reader and clock keep the invariant of requests in flight (R13, R144, R146). -/

set_option Elab.async false

namespace Sys2Proof.Machine

variable {p : PortNo} {k : Option EntryNo} {s t u : State}

/-- From `s` to `t` the invariant of requests in flight is kept. -/
def Upholds (s t : State) : Prop := InFlight s none none → InFlight t none none

theorem Serves.upholds (h : Serves none s t) : Upholds s t := fun hs => hs.serves h

namespace Upholds

theorem refl (s : State) : Upholds s s := id

theorem trans (h : Upholds s t) (g : Upholds t u) : Upholds s u := g ∘ h

theorem serves (h : Upholds s t) (g : Serves none t u) : Upholds s u := h.trans g.upholds

theorem noEvent : Reaches (Machine.noEvent s) (Upholds s) := by
  intro t ht
  cases ht
  exact (Serves.quiet s).upholds

theorem event {body : State → State} (h : Upholds s.quiet (body s.quiet)) : Reaches (Machine.event body s) (Upholds s) := by
  intro t ht
  cases ht
  exact ((Serves.quiet s).upholds.trans h).serves (Serves.refl none _).settle

/-- An event at a port whose body is a run of changes of its record. -/
theorem portRun {gives : Bool} {body : State → State} (h : PortRun p gives s.quiet (body s.quiet)) :
    Reaches (portEvent p body s) (Upholds s) :=
  event (((Serves.refl none _).run h).atPort).upholds

end Upholds

/-! ## Deadlines and beats of a port -/

theorem execSettleExpiry_upholds (p : PortNo) : Reaches (execSettleExpiry p s) (Upholds s) := by
  unfold execSettleExpiry
  split
  · exact Upholds.portRun (PortRun.refl (gives := false)).settleDone
  · exact Upholds.noEvent

theorem execWakePulseEnd_upholds (p : PortNo) : Reaches (execWakePulseEnd p s) (Upholds s) := by
  unfold execWakePulseEnd
  split
  · exact Upholds.portRun (PortRun.refl (gives := false)).mod
  · exact Upholds.noEvent

theorem execBootLimitExpiry_upholds (p : PortNo) : Reaches (execBootLimitExpiry p s) (Upholds s) := by
  unfold execBootLimitExpiry
  split
  · exact Upholds.portRun PortRun.refl.bootLimitDone
  · exact Upholds.noEvent

theorem execHoldLimitExpiry_upholds (p : PortNo) : Reaches (execHoldLimitExpiry p s) (Upholds s) := by
  unfold execHoldLimitExpiry
  split
  · exact Upholds.portRun (PortRun.refl.fault _)
  · exact Upholds.noEvent

theorem execResumeLimitExpiry_upholds (p : PortNo) : Reaches (execResumeLimitExpiry p s) (Upholds s) := by
  unfold execResumeLimitExpiry
  split
  · exact Upholds.portRun (PortRun.refl.fault _)
  · exact Upholds.noEvent

theorem execStopLimitExpiry_upholds (p : PortNo) : Reaches (execStopLimitExpiry p s) (Upholds s) := by
  unfold execStopLimitExpiry
  split
  · exact Upholds.portRun PortRun.refl.stopLimitDone
  · exact Upholds.noEvent

theorem execKeepaliveBoundary_upholds (p : PortNo) : Reaches (execKeepaliveBoundary p s) (Upholds s) := by
  unfold execKeepaliveBoundary
  split
  · exact Upholds.portRun (PortRun.refl.takeBoundary _ _)
  · exact Upholds.noEvent

theorem execGrant_upholds (p : PortNo) : Reaches (execGrant p s) (Upholds s) := by
  unfold execGrant
  split
  · exact Upholds.portRun (PortRun.refl (gives := false)).takeGrant
  · exact Upholds.noEvent

theorem execTripCut_upholds (p : PortNo) : Reaches (execTripCut p s) (Upholds s) := by
  unfold execTripCut
  split
  · exact Upholds.portRun PortRun.refl.takeTripCut
  · exact Upholds.noEvent

/-! ## The lane -/

theorem execAckWaitExpiry_upholds (p : PortNo) : Reaches (execAckWaitExpiry p s) (Upholds s) := by
  unfold execAckWaitExpiry
  split
  · exact Upholds.portRun (PortRun.refl.attemptFails _)
  · exact Upholds.noEvent

theorem execRetryGapExpiry_upholds (p : PortNo) : Reaches (execRetryGapExpiry p s) (Upholds s) := by
  unfold execRetryGapExpiry
  split
  · exact Upholds.portRun ((PortRun.refl (gives := false)).beginAttempt _)
  · exact Upholds.noEvent

theorem execSymbolAcknowledged_upholds (p : PortNo) : Reaches (execSymbolAcknowledged p s) (Upholds s) := by
  unfold execSymbolAcknowledged
  split
  · split
    · exact Upholds.noEvent
    · exact Upholds.portRun ((PortRun.refl (gives := false)).sendNext _)
  · exact Upholds.noEvent

theorem execPartPhraseEndOk_upholds (p : PortNo) : Reaches (execPartPhraseEndOk p s) (Upholds s) := by
  unfold execPartPhraseEndOk
  split
  · split
    · exact Upholds.portRun (PortRun.refl.phraseEndsOk _)
    · exact Upholds.noEvent
  · exact Upholds.noEvent

theorem execCameraStartMark_upholds (p : PortNo) : Reaches (execCameraStartMark p s) (Upholds s) := by
  unfold execCameraStartMark
  split
  · exact Upholds.portRun (PortRun.refl (gives := false)).beginReception
  · exact Upholds.noEvent

theorem execCameraSymbolReceived_upholds (p : PortNo) (data : LaneBits) (parity : Bool) :
    Reaches (execCameraSymbolReceived p data parity s) (Upholds s) := by
  unfold execCameraSymbolReceived
  split
  · split
    · exact Upholds.portRun ((PortRun.refl (gives := false)).clockIn _ _ _)
    · exact Upholds.noEvent
  · exact Upholds.noEvent

theorem execReceiveLimit_upholds (p : PortNo) : Reaches (execReceiveLimit p s) (Upholds s) := by
  unfold execReceiveLimit
  split
  · split
    · exact Upholds.noEvent
    · exact Upholds.portRun (PortRun.refl (gives := false)).discardReception
  · exact Upholds.noEvent

theorem execCameraPhraseDiscarded_upholds (p : PortNo) : Reaches (execCameraPhraseDiscarded p s) (Upholds s) := by
  unfold execCameraPhraseDiscarded
  split
  · exact Upholds.portRun (PortRun.refl (gives := false)).discardReception
  · exact Upholds.noEvent

theorem execHello_upholds (p : PortNo) : Reaches (execHello p s) (Upholds s) := by
  unfold execHello
  split
  · exact Upholds.portRun (PortRun.refl.endReception fun _ => PortRun.refl.takeHello _ _)
  · exact Upholds.noEvent

theorem execSettled_upholds (p : PortNo) : Reaches (execSettled p s) (Upholds s) := by
  unfold execSettled
  split
  · exact Upholds.portRun (PortRun.refl.endReception fun _ => PortRun.refl.takeSettled)
  · exact Upholds.noEvent

theorem execAwake_upholds (p : PortNo) : Reaches (execAwake p s) (Upholds s) := by
  unfold execAwake
  split
  · exact Upholds.portRun (PortRun.refl.endReception fun _ => PortRun.refl.takeAwake)
  · exact Upholds.noEvent

theorem partAlive_serves (p : PortNo) (h : Serves k s t) : Serves k s (partAlive p t) := by
  have hstamp : Serves k s ((cutRail p .parted t).drawStamp p) :=
    (h.run ((PortRun.refl (gives := false)).cutRail .parted)).drawStamp p
  unfold partAlive
  exact ((hstamp.modPort p).run (PortRun.refl.giveAll rfl .parted)).run PortRun.refl.enterOff

theorem takeParting_serves (p : PortNo) (h : Serves k s t) : Serves k s (takeParting p t) := by
  unfold takeParting
  split
  · exact partAlive_serves p h
  · split
    · exact h.run (PortRun.refl.cutRail _).enterOff
    · exact h

theorem execParting_upholds (p : PortNo) : Reaches (execParting p s) (Upholds s) := by
  unfold execParting
  split
  · refine Upholds.event (Serves.atPort ?_).upholds
    rw [endReception_eq]
    exact (takeParting_serves p ((Serves.refl none _).run (modEndOfReception_run (gives := false)))).run
      (PortRun.refl (gives := false)).grantPoint
  · exact Upholds.noEvent

theorem execProfileReplacement_upholds (p : PortNo) : Reaches (execProfileReplacement p s) (Upholds s) := by
  unfold execProfileReplacement
  split
  · exact Upholds.portRun (PortRun.refl.mod.takeReplacement _)
  · exact Upholds.noEvent

/-! ## Plugs and the reader -/

theorem execPlugSenseChange_upholds (p : PortNo) (seated : Bool) : Reaches (execPlugSenseChange p seated s) (Upholds s) := by
  unfold execPlugSenseChange
  split
  · exact Upholds.portRun (PortRun.refl (gives := false)).mod
  · exact Upholds.noEvent

theorem leaveReader_serves (p : PortNo) (h : Serves k s t) : Serves k s (leaveReader p t) := by
  unfold leaveReader
  dsimp only
  have hleft : ∀ waits : Bool, Serves k s
      (if waits then (t.modPort p fun x => { x with toReader := x.toReader.filter (· != .join) }).setReader
          { (t.modPort p fun x => { x with toReader := x.toReader.filter (· != .join) }).reader with
            queue := (t.modPort p fun x => { x with toReader := x.toReader.filter (· != .join) }).reader.queue.erase p }
        else t.modPort p fun x => { x with toReader := x.toReader.filter (· != .join) }) := fun waits => by
    split
    · exact (h.modPort p).setReader _
    · exact h.modPort p
  split
  · split
    · exact hleft _
    · exact (hleft _).modPort p
  · exact h

theorem removePlug_serves (p : PortNo) (h : Serves k s t) : Serves k s (removePlug p t) :=
  ((leaveReader_serves p (h.run cutRail_giveUp_run)).modPort p).run removePlug_run

theorem execPlugDebounceExpiry_upholds (p : PortNo) : Reaches (execPlugDebounceExpiry p s) (Upholds s) := by
  unfold execPlugDebounceExpiry
  split
  · refine Upholds.event (Serves.atPort ?_).upholds
    have hset : Serves none s.quiet (s.quiet.modPort p fun x => { x with plugDebounce := none }) :=
      (Serves.refl none _).modPort p
    unfold plugDebounced
    dsimp only
    split
    · exact hset.run (PortRun.refl (gives := false)).insertPlug
    · split
      · exact removePlug_serves p hset
      · exact hset
  · exact Upholds.noEvent

theorem execIdentityResult_upholds (p : PortNo) : Reaches (execIdentityResult p s) (Upholds s) := by
  unfold execIdentityResult
  split
  · exact Upholds.portRun (PortRun.refl.mod.takeIdResult _)
  · exact Upholds.noEvent

theorem startNextRead_serves (h : Serves k s t) : Serves k s (startNextRead t) := by
  unfold startNextRead
  split
  · exact h.setReader _
  · exact (h.setReader _).emit _

end Sys2Proof.Machine
end

section
/-! The events of reader, governor, monitor and clock keep the invariant of requests in flight. -/

set_option Elab.async false

namespace Sys2Proof.Machine

variable {p : PortNo} {k : Option EntryNo} {s t u : State}

/-! ## The reader -/

theorem takeJoin_serves (p : PortNo) (s : State) : Serves k s (takeJoin p s) := by
  unfold takeJoin
  dsimp only
  split
  · exact startNextRead_serves (((Serves.refl k s).modPort p).setReader _)
  · exact ((Serves.refl k s).modPort p).setReader _

theorem execReaderJoin_upholds (p : PortNo) : Reaches (execReaderJoin p s) (Upholds s) := by
  unfold execReaderJoin
  split
  · exact Upholds.event (takeJoin_serves p _).upholds
  · exact Upholds.noEvent

theorem takeReaderWithdrawal_serves (p : PortNo) (s : State) : Serves k s (takeReaderWithdrawal p s) := by
  have hleft : Serves k s ((s.modPort p fun x => { x with toReader := x.toReader.tail }).setReader
      { (s.modPort p fun x => { x with toReader := x.toReader.tail }).reader with
        queue := (s.modPort p fun x => { x with toReader := x.toReader.tail }).reader.queue.erase p }) :=
    ((Serves.refl k s).modPort p).setReader _
  unfold takeReaderWithdrawal
  dsimp only
  split
  · exact hleft
  · split
    · exact startNextRead_serves (hleft.emit _)
    · exact hleft
  · split
    · exact startNextRead_serves hleft
    · exact hleft

theorem execReaderWithdrawal_upholds (p : PortNo) : Reaches (execReaderWithdrawal p s) (Upholds s) := by
  unfold execReaderWithdrawal
  split
  · exact Upholds.event (takeReaderWithdrawal_serves p _).upholds
  · exact Upholds.noEvent

theorem deliverResult_serves (p : PortNo) (r : IdResult) (h : Serves k s t) : Serves k s (deliverResult p r t) :=
  startNextRead_serves ((h.modPort p).setReader _)

theorem endTry_serves (r : ReadInProgress) (x : TryResult) (s : State) : Serves k s (endTry r x s) := by
  have hacts : Serves k s (s.emit (tryEndActs x)) := (Serves.refl k s).emit _
  unfold endTry
  dsimp only
  split
  · exact deliverResult_serves _ _ hacts
  · split
    · exact hacts.setReader _
    · exact deliverResult_serves _ _ hacts

theorem execTryEnd_upholds (x : TryResult) : Reaches (execTryEnd x s) (Upholds s) := by
  unfold execTryEnd
  split
  · exact Upholds.event (endTry_serves _ x _).upholds
  · exact Upholds.noEvent

theorem execPlugReadRetryExpiry_upholds : Reaches (execPlugReadRetryExpiry s) (Upholds s) := by
  unfold execPlugReadRetryExpiry
  split
  · exact Upholds.event (((Serves.refl none _).setReader _).emit _).upholds
  · exact Upholds.noEvent

/-! ## The governor -/

theorem tellPort_serves (p : PortNo) (m : PortMsg) (h : Serves k s t) : Serves k s (t.tellPort p m) := h.modPort p

theorem serveUpTo_serves (n : Nat) (h : Serves k s t) : Serves k s (serveUpTo n t) := by
  induction n generalizing t with
  | zero => exact h
  | succ n ih =>
    unfold serveUpTo
    split
    · exact h
    · split
      · exact ih (tellPort_serves _ _ (h.setGovernor _))
      · exact h

theorem servingCheck_serves (h : Serves k s t) : Serves k s (servingCheck t) := serveUpTo_serves _ h

theorem takeMessage_serves (p : PortNo) (s : State) : Serves k s (takeMessage p s) := (Serves.refl k s).modPort p

theorem takeClaim_serves (p : PortNo) (s : State) : Serves k s (takeClaim p s) := by
  unfold takeClaim
  dsimp only
  split
  · exact takeMessage_serves p s
  · exact servingCheck_serves (((takeMessage_serves p s).setGovernor _).post _)

theorem takeWithdrawal_serves (p : PortNo) (s : State) : Serves k s (takeWithdrawal p s) := by
  unfold takeWithdrawal
  dsimp only
  split
  · exact ((takeMessage_serves p s).setGovernor _).post _
  · exact takeMessage_serves p s

theorem takeRelease_serves (p : PortNo) (s : State) : Serves k s (takeRelease p s) := by
  unfold takeRelease
  dsimp only
  split
  · exact servingCheck_serves (((takeMessage_serves p s).setGovernor _).post _)
  · exact takeMessage_serves p s

theorem execClaim_upholds (p : PortNo) : Reaches (execClaim p s) (Upholds s) := by
  unfold execClaim
  split
  · exact Upholds.event (takeClaim_serves p _).upholds
  · exact Upholds.noEvent

theorem execWithdrawal_upholds (p : PortNo) : Reaches (execWithdrawal p s) (Upholds s) := by
  unfold execWithdrawal
  split
  · exact Upholds.event (takeWithdrawal_serves p _).upholds
  · exact Upholds.noEvent

theorem execRelease_upholds (p : PortNo) : Reaches (execRelease p s) (Upholds s) := by
  unfold execRelease
  split
  · exact Upholds.event (takeRelease_serves p _).upholds
  · exact Upholds.noEvent

theorem execReturnedGrant_upholds (p : PortNo) : Reaches (execReturnedGrant p s) (Upholds s) := by
  unfold execReturnedGrant
  split
  · exact Upholds.event (takeRelease_serves p _).upholds
  · exact Upholds.noEvent

theorem execGrantHistoryExpiry_upholds (i : Fin 4) : Reaches (execGrantHistoryExpiry i s) (Upholds s) := by
  unfold execGrantHistoryExpiry
  split
  · exact Upholds.event (servingCheck_serves (((Serves.refl none _).setGovernor _).post _)).upholds
  · exact Upholds.noEvent

theorem execHoldoffExpiry_upholds : Reaches (execHoldoffExpiry s) (Upholds s) := by
  unfold execHoldoffExpiry
  split
  · exact Upholds.event (servingCheck_serves (((Serves.refl none _).setGovernor _).post _)).upholds
  · exact Upholds.noEvent

theorem handCuts_serves (ps : List PortNo) (h : Serves k s t) : Serves k s (handCuts ps t) := by
  induction ps generalizing t with
  | nil => exact h
  | cons p ps ih =>
    unfold handCuts
    split
    · exact ih (tellPort_serves p _ h)
    · exact ih h

theorem takeTrip_serves (s : State) : Serves k s (takeTrip s) :=
  ((handCuts_serves allPorts ((Serves.refl k s).setMonitor _)).setGovernor _).post _

theorem execTrip_upholds : Reaches (execTrip s) (Upholds s) := by
  unfold execTrip
  split
  · exact Upholds.event (takeTrip_serves _).upholds
  · exact Upholds.noEvent

/-! ## The monitor -/

theorem compareSupply_serves (h : Serves k s t) : Serves k s (compareSupply t) := by
  unfold compareSupply
  dsimp only
  split
  · split
    · exact (h.setMonitor _).raise _
    · exact h
  · split
    · exact h.setMonitor _
    · exact h

theorem supplyMoves_upholds (mv : Nat) : Reaches (event (supplyMoves mv) s) (Upholds s) :=
  Upholds.event (compareSupply_serves ((Serves.refl none _).setMonitor _)).upholds

theorem execTripLevelChange_upholds : Reaches (execTripLevelChange s) (Upholds s) := by
  unfold execTripLevelChange
  split
  · exact Upholds.event (compareSupply_serves ((Serves.refl none _).setMonitor _)).upholds
  · exact Upholds.noEvent

/-! ## The clock -/

/-- Every record of the ports changes, but for its waiter list. -/
theorem mapped_serves {f : Port → Port} (hf : ∀ x, (f x).waiters = x.waiters := by exact fun _ => rfl) :
    Serves k s { s with ports := s.ports.map f } :=
  .of_same rfl rfl rfl (fun _ => rfl) fun q => by rw [map_port, hf]

/-- What a beat boundary leaves of a record but the steps it owes. -/
theorem owe_fields (x : Sweep) : x.owe = { x with stepsOwed := x.owe.stepsOwed } := by
  unfold Sweep.owe; split <;> rfl

/-- The sweeps owe steps for one beat boundary more. -/
def State.owing (s : State) : State := { s with pool := s.pool.map fun o => o.map Sweep.owe }

theorem owing_sweep (s : State) (r : SweepNo) : s.owing.sweep r = (s.sweep r).map Sweep.owe :=
  Table.get_map _ s.pool r

theorem owing_sweepsOf (s : State) (g : GroupNo) : s.owing.sweepsOf g = s.sweepsOf g := by
  have hmap : s.owing.pool.items = s.pool.items.map fun o => o.map Sweep.owe := rfl
  unfold State.sweepsOf
  rw [hmap, List.countP_map]
  refine List.countP_congr fun o _ => ?_
  cases o with
  | none => exact Iff.rfl
  | some x =>
    have hgroup : x.owe.group = x.group := by rw [owe_fields x]
    simp only [Function.comp_apply, Option.map_some, Option.any_some, hgroup]

theorem owing_sweepOwes (s : State) (e : EntryNo) : s.owing.sweepOwes e = s.sweepOwes e := by
  funext p
  rw [Bool.eq_iff_iff, sweepOwes_iff, sweepOwes_iff]
  have hunvisited : ∀ x : Sweep, s.owing.unvisited x.owe = s.unvisited x := fun x => by
    rw [owe_fields x]; rfl
  constructor
  · rintro ⟨r, y, hy, hye, hp⟩
    rw [owing_sweep] at hy
    obtain ⟨x, hx, rfl⟩ := Option.map_eq_some_iff.1 hy
    refine ⟨r, x, hx, ?_, ?_⟩
    · rw [owe_fields x] at hye; exact hye
    · rwa [hunvisited] at hp
  · rintro ⟨r, x, hx, hxe, hp⟩
    refine ⟨r, x.owe, ?_, ?_, ?_⟩
    · rw [owing_sweep, hx]; rfl
    · rw [owe_fields x]; exact hxe
    · rwa [hunvisited]

theorem owing_upholds (s : State) : Upholds s s.owing := by
  intro h
  have hsweep : ∀ {r y}, s.owing.sweep r = some y → ∃ x, s.sweep r = some x ∧ y = x.owe := fun hy => by
    rw [owing_sweep] at hy
    obtain ⟨x, hx, rfl⟩ := Option.map_eq_some_iff.1 hy
    exact ⟨x, hx, rfl⟩
  refine ⟨fun g => ?_, fun r y hy => ?_, fun r y hy hb => ?_, fun e r q y z hy hz hye hze => ?_, fun e => ?_⟩
  · rw [groupSound_iff, owing_sweepsOf]
    exact (groupSound_iff s g).1 (h.groups g)
  · obtain ⟨x, hx, rfl⟩ := hsweep hy
    rw [owe_fields x]
    obtain ⟨hleft, hwithin, hcursor⟩ := h.placed r x hx
    exact ⟨hleft, hwithin, hcursor⟩
  · obtain ⟨x, hx, rfl⟩ := hsweep hy
    rw [owe_fields x]
    exact h.waits r x hx hb
  · obtain ⟨x, hx, rfl⟩ := hsweep hy
    obtain ⟨x', hx', rfl⟩ := hsweep hz
    rw [owe_fields x] at hye
    rw [owe_fields x'] at hze
    exact h.apart e r q x x' hx hx' hye hze
  · rw [owing_sweepOwes]
    exact h.entries e

theorem takeBeat_upholds (s : State) : Upholds s (takeBeat s) := by
  have hports : Serves none s { s with ports := s.ports.map fun x => { x with boundaries := x.boundaries ++ [s.cadence.beat + 1] } } :=
    mapped_serves
  exact (hports.upholds.trans (owing_upholds _)).serves (.of_same rfl rfl rfl (fun _ => rfl) fun _ => rfl)

theorem execBeatBoundary_upholds : Reaches (execBeatBoundary s) (Upholds s) := by
  unfold execBeatBoundary
  split
  · exact Upholds.event (takeBeat_upholds _)
  · exact Upholds.noEvent

theorem countAll_serves (s : State) : Serves k s (countAll s) := by
  have hports : Serves k s { s with ports := s.ports.map Port.countDown } := mapped_serves
  exact hports.trans (.of_same rfl rfl rfl (fun _ => rfl) fun _ => rfl)

theorem takeTick_upholds (s : State) : Upholds s (takeTick s) := by
  have hbeat : Upholds s (if s.cadence.boundaryDue then takeBeat s else s) := by
    split
    · exact takeBeat_upholds s
    · exact .refl s
  exact hbeat.serves ((countAll_serves _).trans (.of_same rfl rfl rfl (fun _ => rfl) fun _ => rfl))

theorem execTick_upholds : Reaches (execTick s) (Upholds s) := Upholds.event (takeTick_upholds _)

theorem execPolling_upholds : Reaches (execPolling s) (Upholds s) := by
  unfold execPolling
  split
  · exact Upholds.event ((Serves.refl none _).setWalkerState.pollWalker).upholds
  · exact Upholds.noEvent

end Sys2Proof.Machine
end

section
/-! Target sets and visits: what they do to the request that they carry, and the visits of a sweep (R12, R142,
R157 to R161). -/

set_option Elab.async false

namespace Sys2Proof.Machine

variable {p : PortNo} {e d : EntryNo} {r : SweepNo} {s t u : State}

/-! ## A target set and the request it carries (R12) -/

/-- Groups, sweeps, entries, accesses and waiter lists are the same. -/
structure Alike (s t : State) : Prop where
  groups : t.groups = s.groups
  pool : t.pool = s.pool
  inflight : t.inflight = s.inflight
  walker : t.walker = s.walker
  waiting : t.waiting = s.waiting

theorem Alike.refl (s : State) : Alike s s := ⟨rfl, rfl, rfl, rfl, rfl⟩

theorem Alike.atPort (p : PortNo) (f : State → State) (s : State) : Alike (f s) (s.atPort p f) :=
  ⟨by simp, by simp, by simp, by simp, funext fun q => by simp [State.waiting]⟩

theorem Alike.serves (h : Alike s t) (k : Option EntryNo) : Serves k s t :=
  .of_same h.groups h.pool h.inflight (fun e => by rw [h.walker]) fun q => congrFun h.waiting q

/-- A target set acts at its port; a request that it carries then joins the waiter list where the answer is WAITING. -/
theorem targetSet_acts (p : PortNo) (x : TargetSet) (ref : Option EntryNo) (s : State) :
    ∃ u, Acts p s u ∧
      Alike (if (targetSet p x ref s).1 = .waiting then joinWaiters p ref u else u) (targetSet p x ref s).2 := by
  rw [targetSet_answer]
  cases hd : declines (s.port p) x with
  | some c =>
    refine ⟨s, .of_run (gives := false) .refl, ?_⟩
    rw [targetSet_declined p s hd, answerTo, hd, if_neg nofun]
    exact .refl s
  | none =>
    refine ⟨carryOut p x (s.port p).target (storeTarget p x.target (s.drawStamp p)),
      (Acts.drawStamp s).trans (.of_run ((PortRun.refl.storeTarget _).carryOut _ _)), ?_⟩
    rw [targetSet_taken p s hd]
    exact Alike.atPort p (takeTarget p x ref) s

theorem joinWaiters_waiting (p : PortNo) (e : EntryNo) (s : State) :
    (joinWaiters p (some e) s).waiting = Function.update s.waiting p (s.waiting p ++ [e]) := by
  funext q
  unfold State.waiting
  by_cases hq : q = p
  · subst hq
    rw [Function.update_self]
    exact congrArg Port.waiters (port_modPort_self ..)
  · rw [Function.update_of_ne hq]
    exact congrArg Port.waiters (port_modPort_ne _ _ hq)

namespace EntryFit

variable {o : Option Entry} {n : Nat} {w : PortNo → List EntryNo} {owed owed' : PortNo → Bool} {loose : Bool}

/-- The entry joins the waiter list of a port that was owed to it. -/
theorem joined (h : EntryFit e o n w owed loose) (hp : owed p = true) (ho : ∀ q, q ≠ p → owed' q = owed q)
    (hop : owed' p = false) : EntryFit e o n (Function.update w p (w p ++ [e])) owed' loose := by
  have hnot : e ∉ w p := fun hmem => by rw [h.apart p hmem] at hp; cases hp
  refine ⟨h.status, fun q => ?_, fun q hq => ?_, fun q => ?_⟩ <;> by_cases hqp : q = p
  · subst hqp
    rw [Function.update_self, List.count_append, List.count_eq_zero.2 hnot]
    simp
  · rw [Function.update_of_ne hqp]; exact h.once q
  · rw [hqp]; exact hop
  · rw [Function.update_of_ne hqp] at hq
    rw [ho q hqp]; exact h.apart q hq
  · subst hqp
    rw [Function.update_self, h.pends q, hp, hop]
    simp
  · rw [Function.update_of_ne hqp, h.pends q, ho q hqp]

/-- Another entry joins a waiter list. -/
theorem other_joined (h : EntryFit d o n w owed loose) (hd : d ≠ e) :
    EntryFit d o n (Function.update w p (w p ++ [e])) owed loose := by
  refine h.relisted fun q => ?_
  by_cases hqp : q = p
  · subst hqp
    rw [Function.update_self, List.count_append,
      List.count_eq_zero (l := [e]) |>.2 (by simpa using hd), Nat.add_zero]
  · rw [Function.update_of_ne hqp]

end EntryFit

theorem joinWaiters_serves (p : PortNo) (ref : Option EntryNo) (s : State) : Serves ref s (joinWaiters p ref s) := by
  cases ref with
  | none => exact .refl _ s
  | some e =>
    refine ⟨rfl, rfl, fun d owed loose hne hd => ?_⟩
    unfold State.fits at hd ⊢
    rw [joinWaiters_waiting]
    exact hd.other_joined fun h => hne (by rw [h])

/-- A target set serves every request but the one it carries. -/
theorem targetSet_serves (p : PortNo) (x : TargetSet) (ref : Option EntryNo) (s : State) :
    Serves ref s (targetSet p x ref s).2 := by
  obtain ⟨u, hacts, halike⟩ := targetSet_acts p x ref s
  refine ((hacts.serves.all_but ref).trans ?_).trans (halike.serves ref)
  split
  · exact joinWaiters_serves p ref u
  · exact .refl ref u

/-! ## A visit (R159) -/

theorem recordOutcome_waiting (s : State) (e : EntryNo) (p : PortNo) (c : OutcomeCode) :
    (s.recordOutcome e p c).waiting = s.waiting := funext fun q => by simp [State.waiting]

theorem recordOutcome_serves (s : State) (e : EntryNo) (p : PortNo) (c : OutcomeCode) :
    Serves (some e) s (s.recordOutcome e p c) := by
  refine ⟨by simp, by simp, fun d owed loose hne hd => ?_⟩
  unfold State.fits at hd ⊢
  rw [recordOutcome_waiting, recordOutcome_finalWrites, recordOutcome_entry, if_neg fun h => hne (by rw [h])]
  exact hd

theorem recordAnswer_serves (o : Origin) (p : PortNo) (a : Answer) (s : State) :
    Serves o.ref s (recordAnswer o p a s) := by
  unfold recordAnswer
  split
  · exact recordOutcome_serves s _ p _
  · exact .refl _ s

/-- A visit serves every request but that of its sweep. -/
theorem visitMember_serves (x : Sweep) (p : PortNo) (s : State) : Serves x.origin.ref s (visitMember x p s) := by
  unfold visitMember
  split
  · exact recordAnswer_serves _ _ _ _
  · exact (targetSet_serves _ _ _ _).trans (recordAnswer_serves _ _ _ _)

/-- The outcome of a port that a sweep owed to the request. -/
theorem recordOutcome_fits {owed owed' : PortNo → Bool} {loose : Bool} (c : OutcomeCode) (h : s.fits e owed loose)
    (hp : owed p = true) (ho : ∀ q, q ≠ p → owed' q = owed q) (hop : owed' p = false) :
    (s.recordOutcome e p c).fits e owed' true := by
  unfold State.fits at h ⊢
  rw [recordOutcome_waiting, recordOutcome_finalWrites, recordOutcome_entry, if_pos rfl]
  refine h.answered (by rw [h.pends p, hp, Bool.or_true]) (fun _ _ => rfl) (fun hmem => ?_) ho hop
  rw [h.apart p hmem] at hp
  cases hp

/-- The visit of a port that the sweep owed to its request: the port has its outcome or is waited for. -/
theorem visitMember_fits {x : Sweep} {owed owed' : PortNo → Bool} (he : x.origin = .request e)
    (h : s.fits e owed false) (hp : owed p = true) (ho : ∀ q, q ≠ p → owed' q = owed q) (hop : owed' p = false) :
    (visitMember x p s).fits e owed' true := by
  unfold visitMember
  rw [he]
  split
  · exact recordOutcome_fits _ h hp ho hop
  · dsimp only [Origin.ref]
    obtain ⟨u, hacts, halike⟩ := targetSet_acts p x.action (some e) s
    have hu : u.fits e owed false := hacts.serves.fits e _ _ nofun h
    cases ha : (targetSet p x.action (some e) s).1 with
    | decided c =>
      rw [ha, if_neg nofun] at halike
      exact recordOutcome_fits c ((halike.serves none).fits e _ _ nofun hu) hp ho hop
    | waiting =>
      rw [ha, if_pos rfl] at halike
      refine (halike.serves none).fits e _ _ nofun ?_
      unfold State.fits at hu ⊢
      rw [joinWaiters_waiting]
      exact (hu.joined hp ho hop).loosen true

/-! ## The members still to visit (R160) -/

theorem unvisited_eq (s : State) (x : Sweep) (h : x.cursor ≤ (s.members x.group).length) :
    s.unvisited x = ((s.members x.group).rotate x.cursor).take x.remaining := by
  rw [List.rotate_eq_drop_append_take h]
  rfl

/-- The visit at the cursor takes the first of the unvisited members. -/
theorem unvisited_advance (s : State) (x : Sweep) (h : x.Placed (s.members x.group).length) :
    s.unvisited x =
      (s.members x.group)[x.cursor]'h.cursor :: s.unvisited (x.advance (s.members x.group).length) := by
  obtain ⟨hleft, hwithin, hcursor⟩ := h
  have hrotate : (s.members x.group).rotate (x.advance (s.members x.group).length).cursor =
      ((s.members x.group).rotate x.cursor).rotate 1 := by
    rw [List.rotate_rotate]
    unfold Sweep.advance
    dsimp only
    split
    · rfl
    · rw [show x.cursor + 1 = (s.members x.group).length by omega, List.rotate_length, List.rotate_zero]
  have hfirst : (s.members x.group).rotate x.cursor =
      (s.members x.group)[x.cursor] ::
        ((s.members x.group).drop (x.cursor + 1) ++ (s.members x.group).take x.cursor) := by
    rw [List.rotate_eq_drop_append_take hcursor.le, List.drop_eq_getElem_cons hcursor, List.cons_append]
  have hlater : (x.advance (s.members x.group).length).cursor ≤ (s.members x.group).length := by
    unfold Sweep.advance
    dsimp only
    split <;> omega
  rw [unvisited_eq s x hcursor.le, unvisited_eq s (x.advance _) hlater]
  change _ = _ :: ((s.members x.group).rotate _).take (x.remaining - 1)
  rw [hrotate, hfirst, List.rotate_cons_succ, List.rotate_zero, List.take_append_of_le_length]
  · rw [show x.remaining = x.remaining - 1 + 1 by omega, List.take_succ_cons, Nat.add_sub_cancel]
  · rw [List.length_append, List.length_drop, List.length_take]
    omega

theorem unvisited_nodup (s : State) (x : Sweep) (h : (s.members x.group).Nodup)
    (hc : x.cursor ≤ (s.members x.group).length) : (s.unvisited x).Nodup := by
  rw [unvisited_eq s x hc]
  exact (List.nodup_rotate.2 h).sublist (List.take_sublist _ _)

end Sys2Proof.Machine
end

section
/-! The visits of a sweep, its start and its end keep the invariant of requests in flight (R157 to R161). -/

set_option Elab.async false

namespace Sys2Proof.Machine

variable {p : PortNo} {e d : EntryNo} {r : SweepNo} {s t u : State} {x : Sweep} {o : Option Sweep}

/-! ## A record replaced -/

/-- What a record owes. -/
def State.owedBy (s : State) (o : Option Sweep) (q : PortNo) : Bool := o.any fun y => decide (q ∈ s.unvisited y)

/-- The sweeps of other entries owe what they owed. -/
theorem sweepOwes_elsewhere (hm : ∀ g, t.members g = s.members g) (hs : ∀ q, q ≠ r → t.sweep q = s.sweep q)
    (hold : s.entryOf r ≠ some d) (hnew : t.entryOf r ≠ some d) : t.sweepOwes d = s.sweepOwes d := by
  funext q
  rw [Bool.eq_iff_iff, sweepOwes_iff, sweepOwes_iff]
  refine exists_congr fun k => exists_congr fun y => ?_
  by_cases hk : k = r
  · subst hk
    exact ⟨fun ⟨hy, hyd, _⟩ => absurd (entryOf_eq_some.2 ⟨y, hy, hyd⟩) hnew,
      fun ⟨hy, hyd, _⟩ => absurd (entryOf_eq_some.2 ⟨y, hy, hyd⟩) hold⟩
  · rw [hs k hk, unvisited_congr hm]

/-- A sweep of entry `e` is the only one that owes it anything. -/
theorem sweepOwes_own (ha : t.sweepsApart) (hs : t.sweep r = o)
    (ho : ∀ y, o = some y → y.origin = .request e)
    (hnone : o = none → ∀ q y, t.sweep q = some y → y.origin ≠ .request e) : t.sweepOwes e = t.owedBy o := by
  funext q
  cases o with
  | none => exact sweepOwes_of_none (hnone rfl) q
  | some y => exact sweepOwes_of_sweep ha hs (ho y rfl) q

/-- Record `r` has gone on, or is freed, after a visit in the state `v`. -/
structure GoneOn (s t : State) (r : SweepNo) (x : Sweep) (o : Option Sweep) : Prop where
  members : ∀ g, t.members g = s.members g
  groups : ∀ g, t.groupSound g = true
  sweep : ∀ q, t.sweep q = if q = r then o else s.sweep q
  same : ∀ y, o = some y → y.origin = x.origin ∧ y.Placed (s.members y.group).length
  others : ∀ d, x.origin.ref ≠ some d → t.fits d (s.sweepOwes d) false
  own : ∀ e, x.origin = .request e → t.fits e (s.owedBy o) true

theorem owedBy_congr (hm : ∀ g, t.members g = s.members g) (o : Option Sweep) : t.owedBy o = s.owedBy o := by
  funext q
  unfold State.owedBy
  simp only [unvisited_congr hm]

/-- After the record has gone on, its request may be complete. -/
theorem GoneOn.inFlight (g : GoneOn s t r x o) (h : InFlight s none (some r)) (hx : s.sweep r = some x) :
    InFlight t x.origin.ref (some r) := by
  have hself : t.sweep r = o := by rw [g.sweep, if_pos rfl]
  have helse : ∀ q, q ≠ r → t.sweep q = s.sweep q := fun q hq => by rw [g.sweep, if_neg hq]
  have hold : s.entryOf r = x.origin.ref := by unfold State.entryOf; rw [hx]
  have hnew : ∀ d, t.entryOf r = some d → x.origin.ref = some d := fun d hd => by
    obtain ⟨y, hy, hyd⟩ := entryOf_eq_some.1 hd
    rw [← (g.same y (hself.symm.trans hy)).1]
    exact ref_eq_some.2 hyd
  have hapart : t.sweepsApart := by
    have hback : ∀ q y d, t.sweep q = some y → y.origin = .request d → ∃ z, s.sweep q = some z ∧ z.origin = .request d := by
      intro q y d hy hyd
      by_cases hq : q = r
      · subst hq
        exact ⟨x, hx, ref_eq_some.1 (hnew d (entryOf_eq_some.2 ⟨y, hy, hyd⟩))⟩
      · exact ⟨y, by rw [← helse q hq]; exact hy, hyd⟩
    intro d q k y z hy hz hyd hzd
    obtain ⟨y', hy', hyd'⟩ := hback q y d hy hyd
    obtain ⟨z', hz', hzd'⟩ := hback k z d hz hzd
    exact h.apart d q k y' z' hy' hz' hyd' hzd'
  refine ⟨g.groups, fun q y hy => ?_, fun q y hy hb => ?_, hapart, fun d => ?_⟩
  · rw [g.members]
    by_cases hq : q = r
    · subst hq; exact (g.same y (hself.symm.trans hy)).2
    · exact h.placed q y (by rw [← helse q hq]; exact hy)
  · have hq : q ≠ r := fun hq => hb (by rw [hq])
    exact h.waits q y (by rw [← helse q hq]; exact hy) hb
  · by_cases hd : x.origin.ref = some d
    · have hxd := ref_eq_some.1 hd
      have howed : t.sweepOwes d = t.owedBy o := by
        refine sweepOwes_own hapart hself (fun y hy => (g.same y hy).1.trans hxd) fun hnone q y hy hyd => ?_
        have hq : q ≠ r := fun hq => by rw [hq, hself, hnone] at hy; cases hy
        exact hq (h.apart d q r y x (by rw [← helse q hq]; exact hy) hx hyd hxd)
      rw [howed, owedBy_congr g.members, decide_eq_true hd]
      exact g.own d hxd
    · rw [sweepOwes_elsewhere g.members helse (by rw [hold]; exact hd) fun hk => hd (hnew d hk), decide_eq_false hd]
      exact g.others d hd

/-- A sweep that waits for its beat again. -/
theorem InFlight.rested {loose : Option EntryNo} (h : InFlight s loose (some r))
    (hr : ∀ x, s.sweep r = some x → x.Waits) : InFlight s loose none :=
  ⟨h.groups, h.placed, fun q x hx _ => by
    by_cases hq : q = r
    · subst hq; exact hr x hx
    · exact h.waits q x hx fun hb => hq (Option.some.inj hb).symm, h.apart, h.entries⟩

/-! ## A visit and what follows (R159, R160) -/

theorem advance_placed {n : Nat} (h : x.Placed n) (hmore : (x.advance n).remaining ≠ 0) : (x.advance n).Placed n := by
  obtain ⟨hleft, hwithin, hcursor⟩ := h
  have hrem : (x.advance n).remaining = x.remaining - 1 := rfl
  refine ⟨Nat.one_le_iff_ne_zero.2 hmore, by omega, ?_⟩
  unfold Sweep.advance
  dsimp only
  split
  · assumption
  · omega

/-- The members left after the visit are owed as before, the visited one is not. -/
theorem visited_owed (h : InFlight s none (some r)) (hx : s.sweep r = some x) (he : x.origin = .request e)
    (hp : (s.members x.group)[x.cursor]? = some p) :
    s.sweepOwes e p = true ∧
      (∀ q, q ≠ p → s.owedBy (some (x.advance (s.members x.group).length)) q = s.sweepOwes e q) ∧
        s.owedBy (some (x.advance (s.members x.group).length)) p = false := by
  have hplaced := h.placed r x hx
  obtain ⟨hlt, hget⟩ := List.getElem?_eq_some_iff.1 hp
  have hlist := unvisited_advance s x hplaced
  rw [hget] at hlist
  have howes : ∀ q, s.sweepOwes e q = decide (q ∈ s.unvisited x) := sweepOwes_of_sweep h.apart hx he
  have hnodup := unvisited_nodup s x (h.members_nodup x.group) hplaced.cursor.le
  rw [hlist] at hnodup
  refine ⟨?_, fun q hq => ?_, ?_⟩
  · rw [howes, hlist]
    exact decide_eq_true (List.mem_cons_self ..)
  · rw [howes, hlist]
    unfold State.owedBy
    rw [Option.any_some, decide_eq_decide, List.mem_cons]
    exact ⟨.inr, fun h => h.resolve_left hq⟩
  · exact decide_eq_false (List.nodup_cons.1 hnodup).1

/-- What the visit leaves of every request. -/
structure Visited (s v : State) (x : Sweep) : Prop where
  groups : v.groups = s.groups
  pool : v.pool = s.pool
  others : ∀ d, x.origin.ref ≠ some d → v.fits d (s.sweepOwes d) false
  own : ∀ e, x.origin = .request e → v.fits e (s.owedBy (some (x.advance (s.members x.group).length))) true

theorem visitMember_visited (h : InFlight s none (some r)) (hx : s.sweep r = some x)
    (hp : (s.members x.group)[x.cursor]? = some p) : Visited s (visitMember x p s) x := by
  have hserves := visitMember_serves x p s
  refine ⟨hserves.groups, hserves.pool, fun d hd => hserves.fits d _ _ hd (h.entries d), fun e he => ?_⟩
  obtain ⟨howed, hrest, hdone⟩ := visited_owed h hx he hp
  exact visitMember_fits he (h.entries e) howed hrest hdone

theorem owedBy_last {n : Nat} (hlast : (x.advance n).remaining = 0) :
    s.owedBy (some (x.advance n)) = s.owedBy none := by
  funext q
  unfold State.owedBy State.unvisited
  rw [Option.any_some, Option.any_none, hlast]
  simp

/-- A record is freed: its group's count goes down with the number of records that name it (R161). -/
theorem freeSweep_groupSound (h : ∀ g, s.groupSound g = true) (hx : s.sweep r = some x) (g : GroupNo) :
    (freeSweep r x s).groupSound g = true := by
  have hcounts : (freeSweep r x s).countsAgree :=
    freeSweep_countsAgree (fun g => ((groupSound_iff s g).1 (h g)).1) hx
  have hdefined := ((groupSound_iff s g).1 (h g)).2
  refine (groupSound_iff _ g).2 ⟨hcounts g, ?_⟩
  unfold Group.defined at hdefined ⊢
  rw [← (freeSweep_kept r x s).defns g] at hdefined
  cases hg : ((freeSweep r x s).group g).defn with
  | none =>
    rw [hg] at hdefined
    dsimp only at hdefined ⊢
    rw [freeSweep_group]
    split
    · rename_i heq; subst heq; simp only [hdefined]
    · exact hdefined
  | some d => rw [hg] at hdefined; exact hdefined

namespace Visited

variable {v : State}

theorem sweep (hv : Visited s v x) (q : SweepNo) : v.sweep q = s.sweep q := by
  unfold State.sweep; rw [hv.pool]

theorem groupSound (hv : Visited s v x) (h : ∀ g, s.groupSound g = true) (g : GroupNo) : v.groupSound g = true := by
  rw [groupSound_iff, sweepsOf_congr hv.pool, State.group, hv.groups]
  exact (groupSound_iff s g).1 (h g)

/-- The sweep goes on. -/
theorem goneOn (hv : Visited s v x) (h : InFlight s none (some r)) (hx : s.sweep r = some x)
    (hmore : (x.advance (s.members x.group).length).remaining ≠ 0) :
    GoneOn s (v.setSweep r (some (x.advance (s.members x.group).length))) r x
      (some (x.advance (s.members x.group).length)) where
  members := members_congr (t := v.setSweep r _) hv.groups
  groups g := by
    have hcount := sweepsOf_setSweep v r (some (x.advance (s.members x.group).length)) g
    rw [hv.sweep, hx] at hcount
    have hsame : (v.setSweep r (some (x.advance (s.members x.group).length))).sweepsOf g = v.sweepsOf g :=
      Nat.add_right_cancel hcount
    rw [groupSound_iff, hsame]
    exact (groupSound_iff v g).1 (hv.groupSound h.groups g)
  sweep q := by rw [sweep_setSweep, hv.sweep]
  same y hy := by
    cases hy
    exact ⟨rfl, advance_placed (h.placed r x hx) hmore⟩
  others := hv.others
  own := hv.own

/-- The sweep ends with its last visit. -/
theorem freed (hv : Visited s v x) (h : InFlight s none (some r)) (hx : s.sweep r = some x)
    (hlast : (x.advance (s.members x.group).length).remaining = 0) :
    GoneOn s (freeSweep r x v) r x none := by
  have hvg : ∀ g, v.group g = s.group g := fun g => by unfold State.group; rw [hv.groups]
  refine ⟨fun g => ?_, freeSweep_groupSound (hv.groupSound h.groups) (by rw [hv.sweep, hx]), fun q => ?_, nofun,
    hv.others, fun e he => ?_⟩
  · unfold State.members; rw [(freeSweep_kept r x v).defns g, hvg]
  · rw [freeSweep_sweep, hv.sweep]
  · have := hv.own e he
    rw [owedBy_last hlast] at this
    exact this

end Visited

/-- The visits of a sweep, until it ends or waits for its stagger. A request's sweep has a stagger, so its entry is
visited once and may be complete after that (R142, R160). -/
theorem runVisits_inFlight (n : Nat) (h : InFlight s none (some r)) (hx : s.sweep r = some x) (hn : x.remaining ≤ n)
    (hline : x.stagger = 0 → x.origin.ref = none) : InFlight (runVisits n r s).2 x.origin.ref none := by
  induction n generalizing s x with
  | zero => exact absurd (h.placed r x hx).left (by omega)
  | succ n ih =>
    have hplaced := h.placed r x hx
    have hp := List.getElem?_eq_getElem hplaced.cursor
    have hv := visitMember_visited h hx hp
    unfold runVisits
    rw [hx]
    dsimp only
    rw [hp]
    dsimp only
    split
    · rename_i hlast
      exact ((hv.freed h hx hlast).inFlight h hx).rested fun y hy => by
        rw [freeSweep_sweep, if_pos rfl] at hy; cases hy
    · rename_i hmore
      have hon := (hv.goneOn h hx hmore).inFlight h hx
      have hself : (State.setSweep (visitMember x ((s.members x.group)[x.cursor]'hplaced.cursor) s) r
          (some (x.advance (s.members x.group).length))).sweep r = some (x.advance (s.members x.group).length) := by
        rw [sweep_setSweep, if_pos rfl]
      split
      · rename_i hzero
        have href := hline hzero
        rw [href] at hon
        exact ih (x := x.advance (s.members x.group).length) hon hself (Nat.sub_le_of_le_add hn) hline
      · rename_i hstagger
        refine hon.rested fun y hy => ?_
        rw [hself] at hy
        cases hy
        exact ⟨Nat.one_le_iff_ne_zero.2 hstagger, Nat.le_refl _⟩

end Sys2Proof.Machine
end

section
/-! A sweep's start, and the requests that hand their target sets at once (R138 to R142, R157, R158). -/

set_option Elab.async false

namespace Sys2Proof.Machine

variable {p : PortNo} {e d : EntryNo} {r : SweepNo} {s t u : State} {x : Sweep}

/-! ## Free entries and records -/

theorem freeEntry_spec (h : s.freeEntry? = some e) : s.entry e = none := by
  have := List.find?_some h
  simpa using this

theorem freeSweep_spec (h : s.freeSweep? = some r) : s.sweep r = none := by
  have := List.find?_some h
  simpa using this

/-- A free entry: nobody waits for it, no sweep has it, no write finishes it. -/
structure Unused (s : State) (e : EntryNo) : Prop where
  entry : s.entry e = none
  finals : s.finalWrites e = 0
  waiting : ∀ p, e ∉ s.waiting p
  owed : ∀ p, s.sweepOwes e p = false
  sweeps : ∀ r x, s.sweep r = some x → x.origin ≠ .request e

theorem InFlight.unused (h : InFlight s none none) (he : s.entry e = none) : Unused s e := by
  obtain ⟨hstatus, -, -, hpends⟩ := h.entries e
  rw [he] at hstatus hpends
  have hboth : ∀ p, e ∉ s.waiting p ∧ s.sweepOwes e p = false := fun p => by
    have := (hpends p).symm
    simpa [pendsIn] using this
  refine ⟨he, hstatus, fun p => (hboth p).1, fun p => (hboth p).2, fun r x hx hxe => ?_⟩
  have hlist := unvisited_advance s x (h.placed r x hx)
  have howes := sweepOwes_of_sweep h.apart hx hxe ((s.members x.group)[x.cursor]'(h.placed r x hx).cursor)
  rw [(hboth _).2, hlist] at howes
  simp at howes

/-! ## The start of a sweep (R158) -/

/-- The record of a sweep that starts. -/
def newSweep (g : GroupNo) (d : GroupDef) (t : TargetSet) (o : Origin) (stagger : Nat) (s : State) : Sweep :=
  { group := g, action := t, origin := o, startStamp := s.stampCounter, cursor := d.lead
    remaining := d.members.length, stagger := stagger, beatsUntil := stagger, stepsOwed := 0 }

/-- The record is filled and the group's active sweep count raised, before the first visit. -/
def beginSweep (r : SweepNo) (g : GroupNo) (x : Sweep) (s : State) : State :=
  (s.setGroup g { s.group g with active := (s.group g).active + 1 }).setSweep r (some x)

theorem startSweep_eq (r : SweepNo) (g : GroupNo) (d : GroupDef) (t : TargetSet) (o : Origin) (b : Nat) (s : State) :
    startSweep r g d t o b s = runVisits d.members.length r (beginSweep r g (newSweep g d t o b s) s) := rfl

theorem beginSweep_sweep (r q : SweepNo) (g : GroupNo) (x : Sweep) (s : State) :
    (beginSweep r g x s).sweep q = if q = r then some x else s.sweep q := sweep_setSweep ..

theorem beginSweep_group (r : SweepNo) (g h : GroupNo) (x : Sweep) (s : State) :
    (beginSweep r g x s).group h = if h = g then { s.group g with active := (s.group g).active + 1 } else s.group h :=
  group_setGroup ..

theorem beginSweep_members (r : SweepNo) (g : GroupNo) (x : Sweep) (s : State) (h : GroupNo) :
    (beginSweep r g x s).members h = s.members h := by
  unfold State.members
  rw [beginSweep_group]
  split
  · rename_i heq; subst heq; rfl
  · rfl

theorem beginSweep_groupSound {d : GroupDef} (hs : ∀ h, s.groupSound h = true) {g : GroupNo}
    (hd : (s.group g).defn = some d) (hr : s.sweep r = none) (hx : x.group = g) (h : GroupNo) :
    (beginSweep r g x s).groupSound h = true := by
  have hcount := sweepsOf_setSweep (s.setGroup g { s.group g with active := (s.group g).active + 1 }) r (some x) h
  rw [sweep_setGroup, hr, sweepsOf_setGroup] at hcount
  have hsweeps : (beginSweep r g x s).sweepsOf h = s.sweepsOf h + (x.group == h).toNat := hcount
  obtain ⟨hactive, hdefined⟩ := (groupSound_iff s h).1 (hs h)
  rw [groupSound_iff, hsweeps, beginSweep_group, hx]
  by_cases heq : h = g
  · subst heq
    rw [if_pos rfl, beq_self_eq_true, Bool.toNat_true]
    refine ⟨congrArg (· + 1) hactive, ?_⟩
    unfold Group.defined at hdefined ⊢
    rw [hd] at hdefined
    dsimp only
    rw [hd]
    exact hdefined
  · have hne : (g == h) = false := by simpa using fun hg => heq hg.symm
    rw [if_neg heq, hne, Bool.toNat_false]
    exact ⟨hactive, hdefined⟩

/-- A sweep begins in the free record of a state `u` that has the groups and sweeps of `s`. -/
theorem beginSweep_inFlight {d : GroupDef} {g : GroupNo} (h : InFlight s none none) (hg : u.groups = s.groups)
    (hp : u.pool = s.pool) (hd : (s.group g).defn = some d) (hr : s.sweep r = none) (hxg : x.group = g)
    (hlead : x.cursor = d.lead) (hall : x.remaining = d.members.length)
    (hothers : ∀ c, x.origin.ref ≠ some c → u.fits c (s.sweepOwes c) false)
    (hown : ∀ c, x.origin = .request c → (∀ q y, s.sweep q = some y → y.origin ≠ .request c) ∧
      u.fits c (fun p => decide (p ∈ d.members)) false) :
    InFlight (beginSweep r g x u) none (some r) := by
  subst hxg
  have hsweep : ∀ q, u.sweep q = s.sweep q := fun q => by unfold State.sweep; rw [hp]
  have hgroup : ∀ k, u.group k = s.group k := fun k => by unfold State.group; rw [hg]
  have hmembers : ∀ k, (beginSweep r x.group x u).members k = s.members k := fun k => by
    rw [beginSweep_members, members_congr hg]
  have hlist : s.members x.group = d.members := members_of_defn hd
  have hregular := h.regular hd
  have hself : (beginSweep r x.group x u).sweep r = some x := by rw [beginSweep_sweep, if_pos rfl]
  have helse : ∀ q, q ≠ r → (beginSweep r x.group x u).sweep q = s.sweep q := fun q hq => by
    rw [beginSweep_sweep, if_neg hq, hsweep]
  have hold : s.entryOf r = none := by unfold State.entryOf; rw [hr]
  have hnew : (beginSweep r x.group x u).entryOf r = x.origin.ref := by unfold State.entryOf; rw [hself]
  have halone : ∀ c q y, x.origin = .request c → (beginSweep r x.group x u).sweep q = some y →
      y.origin = .request c → q = r := by
    intro c q y hxc hy hyc
    by_contra hq
    exact (hown c hxc).1 q y (by rw [← helse q hq]; exact hy) hyc
  have hapart : (beginSweep r x.group x u).sweepsApart := by
    intro c q k y z hy hz hyc hzc
    by_cases hq : q = r
    · subst hq
      rw [hself] at hy
      cases hy
      exact (halone c k z hyc hz hzc).symm
    · by_cases hk : k = r
      · subst hk
        rw [hself] at hz
        cases hz
        exact halone c q y hzc hy hyc
      · exact h.apart c q k y z (by rw [← helse q hq]; exact hy) (by rw [← helse k hk]; exact hz) hyc hzc
  refine ⟨beginSweep_groupSound (fun k => ?_) (by rw [hgroup]; exact hd) (by rw [hsweep]; exact hr) rfl,
    fun q y hy => ?_, fun q y hy hb => ?_, hapart, fun c => ?_⟩
  · rw [groupSound_iff, hgroup, sweepsOf_congr hp]
    exact (groupSound_iff s k).1 (h.groups k)
  · rw [hmembers]
    by_cases hq : q = r
    · subst hq
      rw [hself] at hy
      cases hy
      rw [hlist]
      exact ⟨by rw [hall]; exact hregular.some_member, hall.le, by rw [hlead]; exact hregular.lead⟩
    · exact h.placed q y (by rw [← helse q hq]; exact hy)
  · have hq : q ≠ r := fun hq => hb (by rw [hq])
    exact h.waits q y (by rw [← helse q hq]; exact hy) nofun
  · by_cases hc : x.origin.ref = some c
    · have hxc := ref_eq_some.1 hc
      have howed : (beginSweep r x.group x u).sweepOwes c = fun p => decide (p ∈ d.members) := by
        funext q
        rw [sweepOwes_of_sweep hapart hself hxc, unvisited_congr hmembers,
          unvisited_eq s x (by rw [hlead, hlist]; exact hregular.lead.le), hlist, hall,
          ← List.length_rotate (l := d.members) (n := x.cursor), List.take_length]
        exact decide_eq_decide.2 List.mem_rotate
      rw [howed]
      exact (hown c hxc).2
    · rw [sweepOwes_elsewhere hmembers helse (by rw [hold]; exact nofun) (by rw [hnew]; exact hc)]
      exact hothers c hc

/-- A sweep of a line starts (R167). -/
theorem startSweep_line {d : GroupDef} {g : GroupNo} (h : InFlight s none none) (hd : (s.group g).defn = some d)
    (hr : s.sweep r = none) (x : TargetSet) (n : LineNo) (b : Nat) :
    InFlight (startSweep r g d x (.line n) b s).2 none none := by
  rw [startSweep_eq]
  have hbegun : InFlight (beginSweep r g (newSweep g d x (.line n) b s) s) none (some r) :=
    beginSweep_inFlight h rfl rfl hd hr rfl rfl rfl (fun c _ => h.entries c) nofun
  exact runVisits_inFlight (x := newSweep g d x (.line n) b s) _ hbegun
    (by rw [beginSweep_sweep, if_pos rfl]) le_rfl fun _ => rfl

theorem judgeEdge_upholds (n : LineNo) (toHigh : Bool) (s : State) : Upholds s (judgeEdge n toHigh s).2 := by
  intro h
  unfold judgeEdge
  split
  · exact h
  · split
    · split
      · exact h
      · exact h
      · rename_i hd hr
        exact startSweep_line h hd (freeSweep_spec hr) _ n _
    · exact h

/-! ## The anchor and the look from it (R121) -/

namespace Serves

variable {k : Option EntryNo}

theorem moveAnchor (h : Serves k s t) (c : FetchedCopy) (form : BlockForm) : Serves k s (moveAnchor c form t) :=
  h.setWalkerState.place

theorem lookFromAnchor (h : Serves k s t) : Serves k s (lookFromAnchor t) := h.placeHeaderWrite.place

theorem refuse (h : Serves k s t) (c : FetchedCopy) (r : RefusalReason) : Serves k s (refuse c r t) :=
  (h.moveAnchor c _).lookFromAnchor

theorem complete (h : Serves k s t) (c : FetchedCopy) (outs : Table OutcomeCode 16) : Serves k s (complete c outs t) :=
  (h.moveAnchor c _).lookFromAnchor

theorem stall (h : Serves k s t) (c : FetchedCopy) : Serves k s (stall c t) := h.setWalkerState

end Serves

/-! ## Target sets handed in the take (R139, R140) -/

theorem handTargets_serves (x : TargetSet) (ref : Option EntryNo) (ps : List PortNo) (a : Answers) (s : State) :
    Serves ref s (handTargets x ref ps a s).2 := by
  induction ps generalizing a s with
  | nil => exact .refl _ s
  | cons p ps ih => exact (targetSet_serves p x ref s).trans (ih _ _)

/-- A request that is not yet in the table waits at the ports that have answered WAITING. -/
structure Gathers (e : EntryNo) (a : Answers) (s : State) : Prop where
  entry : s.entry e = none
  finals : s.finalWrites e = 0
  waiting : ∀ p, (s.waiting p).count e = (a.pending.get p).toNat

theorem record_pending (a : Answers) (p q : PortNo) (b : Answer) :
    (a.record p b).pending.get q = if q = p ∧ b = .waiting then true else a.pending.get q := by
  cases b with
  | decided c => simp [Answers.record]
  | waiting =>
    by_cases hq : q = p
    · subst hq; simp [Answers.record]
    · simp [Answers.record, hq, Table.get_set_ne]

theorem targetSet_gathers {a : Answers} (x : TargetSet) (h : Gathers e a s) (hp : a.pending.get p = false) :
    Gathers e (a.record p (targetSet p x (some e) s).1) (targetSet p x (some e) s).2 := by
  obtain ⟨u, hacts, halike⟩ := targetSet_acts p x (some e) s
  have hnot : e ∉ s.waiting p := by rw [← List.count_eq_zero, h.waiting, hp]; rfl
  obtain ⟨hentry, hfinals, hunlisted⟩ := hacts.unlisted e hnot
  have hjoin : ∀ v : State, Alike v (targetSet p x (some e) s).2 → v.inflight = u.inflight → v.walker = u.walker →
      (targetSet p x (some e) s).2.entry e = none ∧ (targetSet p x (some e) s).2.finalWrites e = 0 := by
    intro v hv hin hw
    refine ⟨?_, ?_⟩
    · rw [entry_congr (hv.inflight.trans hin), hentry, h.entry]
    · rw [finalWrites_eq, hv.walker, hw, ← finalWrites_eq, hfinals, h.finals]
  have hzero : (u.waiting p).count e = 0 := List.count_eq_zero.2 hunlisted
  cases ha : (targetSet p x (some e) s).1 with
  | decided c =>
    rw [ha, if_neg nofun] at halike
    obtain ⟨hone, htwo⟩ := hjoin u halike rfl rfl
    refine ⟨hone, htwo, fun q => ?_⟩
    rw [halike.waiting, record_pending, if_neg fun hq => nomatch hq.2]
    by_cases hq : q = p
    · subst hq; rw [hzero, hp]; rfl
    · rw [hacts.others q hq, h.waiting]
  | waiting =>
    rw [ha, if_pos rfl] at halike
    obtain ⟨hone, htwo⟩ := hjoin _ halike rfl rfl
    refine ⟨hone, htwo, fun q => ?_⟩
    rw [halike.waiting, joinWaiters_waiting, record_pending]
    by_cases hq : q = p
    · subst hq
      rw [Function.update_self, List.count_append, hzero, if_pos ⟨rfl, rfl⟩]
      simp
    · rw [Function.update_of_ne hq, if_neg fun hc => hq hc.1, hacts.others q hq, h.waiting]

/-- Distinct ports, each handed the target set once. -/
theorem handTargets_gathers {a : Answers} (x : TargetSet) (ps : List PortNo) (hnodup : ps.Nodup)
    (h : Gathers e a s) (hps : ∀ p ∈ ps, a.pending.get p = false) :
    Gathers e (handTargets x (some e) ps a s).1 (handTargets x (some e) ps a s).2 := by
  induction ps generalizing a s with
  | nil => exact h
  | cons p ps ih =>
    obtain ⟨hp, hrest⟩ := List.nodup_cons.1 hnodup
    refine ih hrest (targetSet_gathers x h (hps p (List.mem_cons_self ..))) fun q hq => ?_
    have hne : q ≠ p := fun heq => hp (heq ▸ hq)
    rw [record_pending, if_neg fun hc => hne hc.1]
    exact hps q (List.mem_cons_of_mem _ hq)

/-- Each port answers as it stood before the take: a target set changes no other port. -/
theorem handTargets_pending (x : TargetSet) (ref : Option EntryNo) (ps : List PortNo) (hnodup : ps.Nodup) (a : Answers)
    (s : State) (p : PortNo) (h : a.pending.get p = true ∨ p ∈ ps ∧ answerTo (s.port p) x = .waiting) :
    (handTargets x ref ps a s).1.pending.get p = true := by
  induction ps generalizing a s with
  | nil => exact h.resolve_right fun hp => List.not_mem_nil hp.1
  | cons q ps ih =>
    obtain ⟨hq, hrest⟩ := List.nodup_cons.1 hnodup
    refine ih hrest _ _ ?_
    rw [record_pending, targetSet_answer]
    rcases h with h | ⟨hmem, hwaits⟩
    · left; split
      · rfl
      · exact h
    · by_cases hpq : p = q
      · subst hpq
        left; rw [if_pos ⟨rfl, hwaits⟩]
      · right
        refine ⟨(List.mem_cons.1 hmem).resolve_left hpq, ?_⟩
        rw [targetSet_otherPorts x ref p hpq]
        exact hwaits

end Sys2Proof.Machine
end

section
/-! The take of every kind keeps the invariant of requests in flight (R121, R137 to R150). -/

set_option Elab.async false

namespace Sys2Proof.Machine

variable {p : PortNo} {e d : EntryNo} {r : SweepNo} {s t u : State}

/-! ## A request enters the table (R139, R142) -/

theorem setEntry_serves (s : State) (e : EntryNo) (x : Option Entry) : Serves (some e) s (s.setEntry e x) := by
  refine ⟨rfl, rfl, fun d owed loose hne hd => ?_⟩
  unfold State.fits at hd ⊢
  rw [entry_setEntry, if_neg fun h => hne (by rw [h]), finalWrites_setEntry]
  exact hd

/-- The request of a take that some port waits for. -/
theorem Gathers.entered {a : Answers} {x : Entry} (h : Gathers e a s) (hst : x.status = .opened)
    (hx : x.pending = a.pending) (hsome : ∃ p, a.pending.get p = true) :
    (s.setEntry e (some x)).fits e (fun _ => false) false := by
  have hwaits : ∀ p, e ∈ s.waiting p ↔ a.pending.get p = true := fun p => by
    rw [← List.count_pos_iff, h.waiting]
    cases a.pending.get p <;> simp
  unfold State.fits
  rw [entry_setEntry, if_pos rfl, finalWrites_setEntry, h.finals]
  refine ⟨?_, fun p => ?_, fun _ _ => rfl, fun p => ?_⟩
  · simp only [statusFits, hst, hx]
    exact ⟨.inr hsome, trivial⟩
  · change (s.waiting p).count e ≤ 1
    rw [h.waiting]
    cases a.pending.get p <;> simp
  · rw [Bool.or_false]
    change (x.status == .opened && x.pending.get p) = decide (e ∈ s.waiting p)
    rw [hst, hx, Bool.eq_iff_iff, decide_eq_true_eq, hwaits p]
    simp

theorem takeUnstaggered_upholds (c : FetchedCopy) (x : TargetSet) (ps : List PortNo) (hnodup : ps.Nodup) (s : State) :
    Upholds s (takeUnstaggered c x ps s) := by
  intro h
  unfold takeUnstaggered
  split
  · rename_i hwaits
    split
    · exact h.serves ((Serves.refl none s).stall c)
    · rename_i e hfree
      have hunused := h.unused (freeEntry_spec hfree)
      have hstart : Gathers e Answers.empty s :=
        ⟨hunused.entry, hunused.finals, fun p => by
          rw [List.count_eq_zero.2 (hunused.waiting p)]
          simp [Answers.empty]⟩
      have hgathers := handTargets_gathers x ps hnodup hstart fun p _ => by simp [Answers.empty]
      have hserves := handTargets_serves x (some e) ps Answers.empty s
      have hpending : ∃ p, (handTargets x (some e) ps Answers.empty s).1.pending.get p = true := by
        obtain ⟨p, hp, hans⟩ := List.any_eq_true.1 hwaits
        exact ⟨p, handTargets_pending x _ ps hnodup _ s p (.inr ⟨hp, by simpa using hans⟩)⟩
      have hentered := hgathers.entered
        (x := { block := c.address, notify := flagNotify c.data
                pending := (handTargets x (some e) ps Answers.empty s).1.pending
                outcomes := (handTargets x (some e) ps Answers.empty s).1.outcomes, status := .opened }) rfl rfl hpending
      have hall := hserves.trans (setEntry_serves _ e (some
        { block := c.address, notify := flagNotify c.data
          pending := (handTargets x (some e) ps Answers.empty s).1.pending
          outcomes := (handTargets x (some e) ps Answers.empty s).1.outcomes, status := .opened }))
      refine (h.framed (loose' := none) hall.groups hall.pool fun d hd => ?_).serves
        ((Serves.refl none _).moveAnchor c .taken).lookFromAnchor
      by_cases hde : d = e
      · subst hde
        rw [show s.sweepOwes d = fun _ => false from funext hunused.owed]
        exact hentered
      · exact hall.fits d _ _ (fun hc => hde (Option.some.inj hc).symm) hd
  · exact h.serves ((handTargets_serves x none ps Answers.empty s).complete c _)

/-! ## A staggered request (R142) -/

theorem portSet_get (ps : List PortNo) (p : PortNo) : (portSet ps).get p = decide (p ∈ ps) := by
  have hfold : ∀ t : Table Bool 16,
      (ps.foldl (fun t p => t.set p true) t).get p = (decide (p ∈ ps) || t.get p) := by
    induction ps with
    | nil => intro t; simp
    | cons q ps ih =>
      intro t
      rw [List.foldl_cons, ih]
      by_cases hpq : p = q
      · subst hpq; simp
      · rw [Table.get_set_ne _ _ hpq]; simp [hpq]
  rw [portSet, hfold, Table.get_replicate, Bool.or_false]

/-- The entry of a staggered request owes every member. -/
theorem Unused.entered {g : GroupDef} {x : Entry} (h : Unused s e) (hg : g.Regular) (hst : x.status = .opened)
    (hx : x.pending = portSet g.members) :
    (s.setEntry e (some x)).fits e (fun p => decide (p ∈ g.members)) false := by
  unfold State.fits
  rw [entry_setEntry, if_pos rfl, finalWrites_setEntry, h.finals]
  refine ⟨?_, fun p => ?_, fun p hp => absurd hp (h.waiting p), fun p => ?_⟩
  · simp only [statusFits, hst, hx, portSet_get]
    exact ⟨.inr ⟨g.members[g.lead]'hg.lead, by simp⟩, trivial⟩
  · exact (List.count_eq_zero.2 (h.waiting p)).le.trans (Nat.zero_le 1)
  · rw [decide_eq_false (show e ∉ (s.setEntry e (some x)).waiting p from h.waiting p), Bool.false_or]
    change (x.status == .opened && x.pending.get p) = _
    rw [hst, hx, portSet_get]
    rfl

/-- The sweep of a request starts with its first visit (R142, R158). -/
theorem startSweep_request {d : GroupDef} {g : GroupNo} {x : Entry} (h : InFlight s none none)
    (hd : (s.group g).defn = some d) (hr : s.sweep r = none) (he : s.entry e = none) (hst : x.status = .opened)
    (hx : x.pending = portSet d.members) (y : TargetSet) {b : Nat} (hb : b ≠ 0) :
    InFlight (startSweep r g d y (.request e) b (s.setEntry e (some x))).2 (some e) none := by
  have hunused := h.unused he
  rw [startSweep_eq]
  have hbegun : InFlight (beginSweep r g (newSweep g d y (.request e) b (s.setEntry e (some x))) (s.setEntry e (some x)))
      none (some r) := by
    refine beginSweep_inFlight h rfl rfl hd hr rfl rfl rfl (fun c hc => ?_) fun c hc => ?_
    · exact (setEntry_serves s e (some x)).fits c _ _ hc (h.entries c)
    · cases hc
      exact ⟨hunused.sweeps, hunused.entered (h.regular hd) hst hx⟩
  exact runVisits_inFlight (x := newSweep g d y (.request e) b (s.setEntry e (some x))) _ hbegun
    (by rw [beginSweep_sweep, if_pos rfl]) le_rfl fun hzero => absurd hzero hb

theorem takeStaggered_upholds (c : FetchedCopy) (g : GroupNo) (d : GroupDef) (x : TargetSet) (b : Nat) (hb : b ≠ 0)
    (s : State) (hd : (s.group g).defn = some d) : Upholds s (takeStaggered c g d x b s) := by
  intro h
  unfold takeStaggered
  split
  · rename_i e r he hr
    have hstarted := startSweep_request (e := e) h hd (freeSweep_spec hr) (freeEntry_spec he)
      (x := { block := c.address, notify := flagNotify c.data, pending := portSet d.members
              outcomes := noOutcomes, status := .opened }) rfl rfl x hb
    have hmoved := hstarted.serves ((Serves.refl none _).moveAnchor c .taken)
    exact hmoved.finishEntry.serves (Serves.refl none _).lookFromAnchor
  · exact h.serves ((Serves.refl none s).stall c)

theorem visitingOrder_nodup {d : GroupDef} (h : d.Regular) : d.visitingOrder.Nodup := by
  unfold GroupDef.visitingOrder
  rw [← List.rotate_eq_drop_append_take h.lead.le]
  exact List.nodup_rotate.2 h.distinct

theorem targetGroup_spec {b : Table Byte 64} {g : GroupNo} {d : GroupDef} (h : targetGroup? b s = some (g, d)) :
    (s.group g).defn = some d := by
  unfold targetGroup? at h
  split at h
  · cases h
  · obtain ⟨d', hd, heq⟩ := Option.map_eq_some_iff.1 h
    cases heq
    exact hd

theorem takePortTarget_upholds (k : Kind) (c : FetchedCopy) (s : State) : Upholds s (takePortTarget k c s) := by
  intro h
  unfold takePortTarget
  dsimp only
  split
  · split
    · exact h.serves ((Serves.refl none s).refuse c _)
    · rename_i g d hg
      have hd := targetGroup_spec hg
      split
      · exact takeUnstaggered_upholds c _ _ (visitingOrder_nodup (h.regular hd)) s h
      · rename_i hb
        exact takeStaggered_upholds c g d _ _ hb s hd h
  · exact takeUnstaggered_upholds c _ _ (maskPorts_nodup _) s h

/-! ## CLEAR and SET_PROFILE -/

theorem clearPorts_serves (k : Option EntryNo) (ticket : Nat) (ps : List PortNo) (o : Table OutcomeCode 16) (s : State) :
    Serves k s (clearPorts ticket ps o s).2 := by
  induction ps generalizing o s with
  | nil => exact .refl k s
  | cons p ps ih => exact (Serves.atPort ((Serves.refl k s).run (PortRun.refl.clearPort ticket))).trans (ih _ _)

theorem takeClear_upholds (c : FetchedCopy) (s : State) : Upholds s (takeClear c s) :=
  ((clearPorts_serves none _ _ _ s).complete c _).upholds

theorem handReplacements_serves (k : Option EntryNo) (l : Profile) (ps : List PortNo) (s : State) :
    Serves k s (handReplacements l ps s) := by
  induction ps generalizing s with
  | nil => exact .refl k s
  | cons p ps ih => exact ((Serves.refl k s).modPort p).trans (ih _)

theorem storeProfile_upholds (c : FetchedCopy) (l : Profile) (s : State) : Upholds s (storeProfile c l s) :=
  ((handReplacements_serves none l _ s).complete c _).upholds

theorem takeSetProfile_upholds (c : FetchedCopy) (s : State) : Upholds s (takeSetProfile c s) := by
  unfold takeSetProfile
  dsimp only
  split_ifs
  · exact ((Serves.refl none s).refuse c _).upholds
  · exact storeProfile_upholds c _ s
  · exact ((Serves.refl none s).refuse c _).upholds
  · exact (Serves.refl none s).setWalkerState.place.upholds

theorem takeProfileList_upholds (c : FetchedCopy) (data : List Byte) (s : State) :
    Upholds s (takeProfileList c data s) := by
  unfold takeProfileList
  dsimp only
  split
  · exact storeProfile_upholds c _ s
  · exact ((Serves.refl none s).refuse c _).upholds

/-! ## Configuration -/

theorem length_of_mapM {α β : Type} {f : α → Option β} {l : List α} {l' : List β} (h : l.mapM f = some l') :
    l'.length = l.length := by
  induction l generalizing l' with
  | nil =>
    rw [List.mapM_nil] at h
    cases h
    rfl
  | cons a l ih =>
    rw [List.mapM_cons] at h
    obtain ⟨b, -, hb⟩ := Option.bind_eq_some_iff.1 h
    obtain ⟨l'', hl, hcons⟩ := Option.bind_eq_some_iff.1 hb
    cases hcons
    rw [List.length_cons, List.length_cons, ih hl]

/-- A definition that passes Table 8-3 is regular (R134, R155). -/
theorem groupRequest_regular {b : Table Byte 64} {q : GroupRequest} {d : GroupDef} (h : groupRequest? b = some q)
    (hd : q.defn = some d) : d.Regular := by
  unfold groupRequest? at h
  dsimp only at h
  split at h
  · cases h
  · split at h
    · split at h
      · cases h; cases hd
      · cases h
    · rename_i hzero
      split at h
      · rename_i hcount
        split at h
        · rename_i ms hms
          split at h
          · rename_i hnodup
            cases h
            cases hd
            have hlength := length_of_mapM hms
            rw [List.length_take, List.length_take, List.length_drop, b.size] at hlength
            have hlen : ms.length = (byteAt b 21).toNat := by omega
            refine ⟨?_, ?_, ?_, hnodup⟩ <;> dsimp only <;> omega
          · cases h
        · cases h
      · cases h

/-- A group without sweeps has no members to visit. -/
theorem no_sweep_of_idle (h : InFlight s none none) {g : GroupNo} (hidle : (s.group g).active = 0) {x : Sweep}
    (hx : s.sweep r = some x) : x.group ≠ g := by
  intro hg
  have hactive := ((groupSound_iff s g).1 (h.groups g)).1
  have hcount := sweepsOf_setSweep s r none g
  rw [hx] at hcount
  have hruns : runsFor g (some x) = true := by simp [runsFor, hg]
  rw [hruns, ← hactive, hidle] at hcount
  simp [runsFor] at hcount

theorem setDefn_members {g k : GroupNo} {o : Option GroupDef} (hk : k ≠ g) :
    (s.setGroup g { s.group g with defn := o }).members k = s.members k := by
  unfold State.members
  rw [group_setGroup, if_neg hk]

/-- A group that no sweep runs for is defined anew (R135, R148). -/
theorem setDefn_upholds {g : GroupNo} {o : Option GroupDef} (hidle : (s.group g).active = 0)
    (ho : ∀ d, o = some d → d.Regular) : Upholds s (s.setGroup g { s.group g with defn := o }) := by
  intro h
  have hmembers : ∀ q x, s.sweep q = some x →
      (s.setGroup g { s.group g with defn := o }).members x.group = s.members x.group :=
    fun q x hx => setDefn_members (no_sweep_of_idle h hidle hx)
  refine ⟨fun k => ?_, fun q x hx => ?_, h.waits, h.apart, fun e => ?_⟩
  · rw [groupSound_iff, sweepsOf_setGroup, group_setGroup]
    by_cases hk : k = g
    · subst hk
      rw [if_pos rfl]
      refine ⟨((groupSound_iff s k).1 (h.groups k)).1, ?_⟩
      unfold Group.defined
      cases o with
      | none => exact hidle
      | some d => exact ho d rfl
    · rw [if_neg hk]
      exact (groupSound_iff s k).1 (h.groups k)
  · rw [hmembers q x hx]
    exact h.placed q x hx
  · have howes : (s.setGroup g { s.group g with defn := o }).sweepOwes e = s.sweepOwes e := by
      funext p
      rw [Bool.eq_iff_iff, sweepOwes_iff, sweepOwes_iff]
      refine exists_congr fun q => exists_congr fun x => and_congr_right fun hx => ?_
      rw [State.unvisited, hmembers q x hx]
      exact Iff.rfl
    rw [howes]
    exact h.entries e

theorem takeSetGroup_upholds (c : FetchedCopy) (s : State) : Upholds s (takeSetGroup c s) := by
  unfold takeSetGroup
  split
  · exact ((Serves.refl none s).refuse c _).upholds
  · rename_i q hq
    split
    · exact ((Serves.refl none s).refuse c _).upholds
    · rename_i hbusy
      have hidle : (s.group q.group).active = 0 := by simpa [groupBusy] using hbusy
      exact (setDefn_upholds hidle fun d hd => groupRequest_regular hq hd).serves ((Serves.refl none _).complete c _)

theorem takeBindInput_upholds (c : FetchedCopy) (s : State) : Upholds s (takeBindInput c s) := by
  unfold takeBindInput
  split
  · exact ((Serves.refl none s).refuse c _).upholds
  · split
    · exact ((Serves.refl none s).refuse c _).upholds
    · exact (((Serves.refl none s).setBinding _ _).complete c _).upholds
  · split
    · exact ((Serves.refl none s).refuse c _).upholds
    · exact (((Serves.refl none s).setBinding _ _).complete c _).upholds

theorem acceptOffer_serves (o : RigOffer) (s : State) : Serves none s (acceptOffer o s) := by
  unfold acceptOffer
  dsimp only
  split
  · exact .of_ports rfl rfl rfl rfl rfl
  · exact .of_ports rfl rfl rfl rfl rfl

theorem takeSetRig_upholds (c : FetchedCopy) (s : State) : Upholds s (takeSetRig c s) := by
  unfold takeSetRig
  dsimp only
  split_ifs
  · exact ((Serves.refl none s).refuse c _).upholds
  · exact ((Serves.refl none s).refuse c _).upholds
  · exact ((acceptOffer_serves _ s).complete c _).upholds

/-! ## A copy judged -/

theorem takeCopy_upholds (c : FetchedCopy) (s : State) : Upholds s (takeCopy c s) := by
  unfold takeCopy
  split
  · exact ((Serves.refl none s).refuse c _).upholds
  · rename_i k _
    split_ifs
    · exact ((Serves.refl none s).refuse c _).upholds
    · exact ((Serves.refl none s).refuse c _).upholds
    · cases k with
      | wake => exact takePortTarget_upholds _ c s
      | pause => exact takePortTarget_upholds _ c s
      | resume => exact takePortTarget_upholds _ c s
      | sleep => exact takePortTarget_upholds _ c s
      | clear => exact takeClear_upholds c s
      | setProfile => exact takeSetProfile_upholds c s
      | setGroup => exact takeSetGroup_upholds c s
      | bindInput => exact takeBindInput_upholds c s
      | setRig => exact takeSetRig_upholds c s

theorem retake_upholds (s : State) : Upholds s (retake s) := by
  unfold retake
  split
  · exact takeCopy_upholds _ s
  · exact .refl s

theorem retakeIf_upholds (ended : Bool) (s : State) : Upholds s (retakeIf ended s) := by
  unfold retakeIf
  split
  · exact retake_upholds s
  · exact .refl s

end Sys2Proof.Machine
end

section
/-! The bus, the sweep steps and the inputs keep the invariant of requests in flight (R117 to R127, R160, R166). -/

set_option Elab.async false

namespace Sys2Proof.Machine

variable {e d : EntryNo} {k : Option EntryNo} {r : SweepNo} {s t u : State}

/-! ## Reads -/

theorem headerRead_serves (a : Addr) (data : Table Byte 64) (h : Serves k s t) : Serves k s (headerRead a data t) := by
  unfold headerRead
  split
  · have hboard : Serves k s (t.setWalker
        { (if t.walker.anchor = .absent then
            { t.walker with
              board := some { header := a, statusPage := headerStatusPage data }
              anchor := .header, takenCount := 0, finishedCount := 0 }
          else { t.walker with board := some { header := a, statusPage := headerStatusPage data } }) with
          lookAgain := true }) := by
      split
      · exact h.setWalkerState
      · exact h.setWalkerState
    exact (hboard.placeHeaderWrite.setWriter _).enterWatching
  · exact h.haltWalker _

theorem linkRead_serves (a : Addr) (h : Serves k s t) : Serves k s (linkRead a t) := by
  unfold linkRead
  split_ifs
  · exact h.enterWatching
  · exact h.haltWalker _
  · exact h.setWalkerState.place

theorem blockRead_upholds (a : Addr) (data : Table Byte 64) (h : Upholds s t) : Upholds s (blockRead a data t) := by
  have hcopy : ∀ c, Serves none t (t.setWalker { t.walker with copy := c }) := fun c =>
    (Serves.refl none t).setWalkerState
  unfold blockRead
  split
  · exact h.serves (hcopy none).enterWatching
  · exact (h.serves (hcopy _)).trans (takeCopy_upholds _ _)
  · exact h.serves ((hcopy none).haltWalker _)

theorem listRead_upholds (data : List Byte) (h : Upholds s t) : Upholds s (listRead data t) := by
  unfold listRead
  split
  · exact h.trans (takeProfileList_upholds _ _ _)
  · exact h

/-- A read that counts, or whose data is discarded. -/
theorem readIf_upholds {b : BusAccess} {f : State → State} (hb : s.walker.current = some b)
    (hf : ∀ e, b.access.finalFor e = false) (hcounts : ∀ t, Upholds s t → Upholds s (f t)) :
    Reaches (event (fun s => if readCounts s b then f (endAccess s) else endAccess s) s) (Upholds s) := by
  refine Upholds.event ?_
  have hend : Upholds s (endAccess s.quiet) := (((Serves.quiet s).endAccess (b := b) hb hf)).upholds
  intro h
  have hs : InFlight s none none := h.serves (.of_ports rfl rfl rfl rfl rfl)
  split
  · exact hcounts _ hend hs
  · exact hend hs

theorem execHeaderReadComplete_upholds (data : Table Byte 64) : Reaches (execHeaderReadComplete data s) (Upholds s) := by
  unfold execHeaderReadComplete
  split
  · rename_i b hb
    split
    · rename_i a ha
      exact readIf_upholds hb (fun _ => by rw [ha]; rfl) fun t ht =>
        ht.serves (headerRead_serves a data (.refl none t))
    · exact Upholds.noEvent
  · exact Upholds.noEvent

theorem execLinkReadComplete_upholds (link : Addr) : Reaches (execLinkReadComplete link s) (Upholds s) := by
  unfold execLinkReadComplete
  split
  · rename_i b hb
    split
    · rename_i ha
      exact readIf_upholds hb (fun _ => by rw [ha]; rfl) fun t ht => ht.serves (linkRead_serves link (.refl none t))
    · exact Upholds.noEvent
  · exact Upholds.noEvent

theorem execBlockReadComplete_upholds (data : Table Byte 64) : Reaches (execBlockReadComplete data s) (Upholds s) := by
  unfold execBlockReadComplete
  split
  · rename_i b hb
    split
    · rename_i a ha
      exact readIf_upholds hb (fun _ => by rw [ha]; rfl) fun t ht => blockRead_upholds a data ht
    · exact Upholds.noEvent
  · exact Upholds.noEvent

theorem execProfileListReadComplete_upholds (data : List Byte) :
    Reaches (execProfileListReadComplete data s) (Upholds s) := by
  unfold execProfileListReadComplete
  split
  · rename_i b hb
    split
    · rename_i a n ha
      split
      · exact readIf_upholds hb (fun _ => by rw [ha]; rfl) fun t ht => listRead_upholds data ht
      · exact Upholds.noEvent
    · exact Upholds.noEvent
  · exact Upholds.noEvent

/-! ## A DONE or REFUSED write (R123) -/

/-- The finished count rises and REQUEST_DONE is set with NOTIFY. -/
def countFinished (w : BlockWrite) (s : State) : State :=
  if w.notify then
    (s.setWalker { s.walker with finishedCount := s.walker.finishedCount + 1 }).placeHeaderWrite.raise .requestDone
  else (s.setWalker { s.walker with finishedCount := s.walker.finishedCount + 1 }).placeHeaderWrite

theorem finalWritten_of_entry (w : BlockWrite) (he : w.entry = some e) (s : State) :
    finalWritten w s = retake ((countFinished w s).setEntry e none) := by
  unfold finalWritten
  rw [he]
  rfl

theorem finalWritten_of_none (w : BlockWrite) (he : w.entry = none) (s : State) :
    finalWritten w s = countFinished w s := by
  unfold finalWritten
  rw [he]
  rfl

theorem countFinished_serves (w : BlockWrite) (h : Serves k s t) : Serves k s (countFinished w t) := by
  unfold countFinished
  split
  · exact h.setWalkerState.placeHeaderWrite.raise _
  · exact h.setWalkerState.placeHeaderWrite

theorem releaseCopy_serves (w : BlockWrite) (h : Serves k s t) : Serves k s (releaseCopy w t) := by
  unfold releaseCopy
  split
  · exact h.setWalkerState
  · exact h

theorem placeHeaderWrite_setEntry (s : State) (e : EntryNo) (x : Option Entry) :
    s.placeHeaderWrite.setEntry e x = (s.setEntry e x).placeHeaderWrite := by
  unfold State.placeHeaderWrite
  rw [setEntry_walker]
  split <;> rfl

theorem countFinished_setEntry (w : BlockWrite) (s : State) (e : EntryNo) (x : Option Entry) :
    (countFinished w s).setEntry e x = countFinished w (s.setEntry e x) := by
  have hcount := placeHeaderWrite_setEntry
    (s.setWalker { s.walker with finishedCount := s.walker.finishedCount + 1 }) e x
  unfold countFinished
  split
  · exact congrArg (fun v : State => v.raise .requestDone) hcount
  · exact hcount

theorem releaseCopy_setEntry (w : BlockWrite) (s : State) (e : EntryNo) (x : Option Entry) :
    (releaseCopy w s).setEntry e x = releaseCopy w (s.setEntry e x) := by
  unfold releaseCopy
  split <;> rfl

theorem finalWrites_endAccess {b : BusAccess} (hb : s.walker.current = some b) (d : EntryNo) :
    s.finalWrites d = (b.access.finalFor d).toNat + (endAccess s).finalWrites d := by
  rw [finalWrites_eq, finalWrites_eq, finals_eq, finals_eq, hb]
  simp [endAccess]

/-- The entry whose finishing write has completed is freed: it was HELD, so nobody waited for it. -/
theorem finished_upholds {b : BusAccess} (hb : s.walker.current = some b) (he : b.access.finalFor e = true)
    (hothers : ∀ d, d ≠ e → b.access.finalFor d = false) : Upholds s ((endAccess s).setEntry e none) := by
  intro h
  refine h.framed rfl rfl fun d hd => ?_
  have hfinals := finalWrites_endAccess hb d
  unfold State.fits at hd ⊢
  rw [entry_setEntry, finalWrites_setEntry]
  by_cases hde : d = e
  · subst hde
    rw [if_pos rfl]
    rw [he, Bool.toNat_true] at hfinals
    obtain ⟨hstatus, -, -, hpends⟩ := hd
    have hheld : (∀ p, pendsIn (s.entry d) p = false) ∧ s.finalWrites d = 1 := by
      cases hx : s.entry d with
      | none => rw [hx] at hstatus; simp only [statusFits] at hstatus; omega
      | some x =>
        rw [hx] at hstatus
        cases hst : x.status with
        | opened => simp only [statusFits, hst] at hstatus; omega
        | held =>
          simp only [statusFits, hst] at hstatus
          exact ⟨fun p => by simp [pendsIn, hst], hstatus.2⟩
    have hnobody : ∀ p, d ∉ s.waiting p ∧ s.sweepOwes d p = false := fun p => by
      have := hpends p
      rw [hheld.1 p] at this
      simpa using this.symm
    refine ⟨?_, fun p => ?_, fun p hp => absurd hp (hnobody p).1, fun p => ?_⟩
    · change (endAccess s).finalWrites d = 0
      omega
    · exact (List.count_eq_zero.2 (hnobody p).1).le.trans (Nat.zero_le 1)
    · rw [(hnobody p).2, Bool.or_false]
      exact (decide_eq_false (hnobody p).1).symm
  · rw [if_neg hde]
    rw [hothers d hde, Bool.toNat_false, Nat.zero_add] at hfinals
    rw [← hfinals]
    exact hd

theorem finalFor_iff (w : BlockWrite) (e : EntryNo) :
    (Access.blockWrite w).finalFor e = true ↔ w.entry = some e ∧ w.form ≠ .taken := by
  simp [Access.finalFor]

theorem blockWritten_upholds {b : BusAccess} {w : BlockWrite} (hb : s.walker.current = some b)
    (ha : b.access = .blockWrite w) : Upholds s (blockWritten b w s) := by
  have hnot : (∀ d, b.access.finalFor d = false) → Serves none s (releaseCopy w (landParts b.parts (endAccess s))) :=
    fun hd => releaseCopy_serves w (((Serves.refl none s).endAccess hb hd).landParts _)
  have hnone : ∀ d, (w.entry ≠ some d ∨ w.form = .taken) → b.access.finalFor d = false := fun d hd => by
    rw [ha, Bool.eq_false_iff, Ne, finalFor_iff]
    tauto
  unfold blockWritten
  dsimp only
  split
  · rename_i htaken
    exact (hnot fun d => hnone d (.inr htaken)).upholds
  · rename_i hform
    cases he : w.entry with
    | none =>
      rw [finalWritten_of_none w he]
      exact (countFinished_serves w (hnot fun d => hnone d (.inl (by rw [he]; exact nofun)))).upholds
    | some e =>
      rw [finalWritten_of_entry w he, countFinished_setEntry, releaseCopy_setEntry]
      have hfinished : Upholds s ((endAccess s).setEntry e none) :=
        finished_upholds hb (by rw [ha, finalFor_iff]; exact ⟨he, hform⟩) fun d hd =>
          hnone d (.inl fun hd' => hd (Option.some.inj (hd'.symm.trans he)))
      have hcounted : Serves none ((endAccess s).setEntry e none)
          (countFinished w (releaseCopy w (landParts b.parts ((endAccess s).setEntry e none)))) :=
        countFinished_serves w (releaseCopy_serves w ((Serves.refl none _).landParts _))
      exact (hfinished.serves hcounted).trans (retake_upholds _)

theorem execBlockWriteComplete_upholds : Reaches (execBlockWriteComplete s) (Upholds s) := by
  unfold execBlockWriteComplete
  split
  · rename_i b hb
    split
    · rename_i w ha
      exact Upholds.event (blockWritten_upholds (s := s.quiet) hb ha)
    · exact Upholds.noEvent
  · exact Upholds.noEvent

theorem execHeaderWriteComplete_upholds : Reaches (execHeaderWriteComplete s) (Upholds s) := by
  unfold execHeaderWriteComplete
  split
  · rename_i b hb
    split
    · rename_i ha
      exact Upholds.event
        (((Serves.refl none s.quiet).endAccess (b := b) hb fun _ => by rw [ha]; rfl).landParts _).upholds
    · exact Upholds.noEvent
  · exact Upholds.noEvent

/-! ## Failures (R127) -/

theorem countP_keepWrite (f : Access → Bool) (a : Access) (l : List Access) :
    (keepWrite a l).countP f = l.countP f + (f a).toNat := by
  unfold keepWrite
  split
  · rw [List.countP_cons, List.countP_cons, List.countP_cons]
    cases f a <;> simp
    omega
  · rw [List.countP_cons]
    cases f a <;> simp

theorem walkerFails_serves {b : BusAccess} (hb : s.walker.current = some b) : Serves none s (walkerFails b s) := by
  have hkept : Serves none s (if b.access.isRead then endAccess s
      else (endAccess s).setWalker
        { (endAccess s).walker with accesses := keepWrite b.access (endAccess s).walker.accesses }) := by
    split
    · rename_i hread
      exact (Serves.refl none s).endAccess hb (Serves.finalFor_of_read hread)
    · refine .of_same rfl rfl rfl (fun e => ?_) fun _ => rfl
      rw [finals_eq, finals_eq, hb, Option.elim_some, setWalker_walker, countP_keepWrite]
      simp [endAccess, Nat.add_comm]
  unfold walkerFails
  dsimp only
  split
  · exact hkept
  · exact hkept.haltWalker _

theorem writerFails_serves (w : SlotWrite) (s : State) : Serves none s (writerFails w s) := by
  unfold writerFails
  dsimp only
  split
  · exact (Serves.refl none s).setWriter _
  · exact ((Serves.refl none s).setWriter _).haltWalker _

theorem execAccessFailure_upholds (a : BusAgent) : Reaches (execAccessFailure a s) (Upholds s) := by
  unfold execAccessFailure
  split
  · split
    · rename_i b hb
      exact Upholds.event (walkerFails_serves (s := s.quiet) hb).upholds
    · exact Upholds.noEvent
  · split
    · exact Upholds.event (writerFails_serves _ _).upholds
    · exact Upholds.noEvent

theorem execSlotWriteComplete_upholds : Reaches (execSlotWriteComplete s) (Upholds s) := by
  unfold execSlotWriteComplete
  split
  · exact Upholds.event (((Serves.refl none _).setWriter _).landParts _).upholds
  · exact Upholds.noEvent

/-! ## A step of a sweep (R160) -/

/-- A record whose sweep takes a beat. -/
def Sweep.stepped (x : Sweep) : Sweep := { x with beatsUntil := x.beatsUntil - 1, stepsOwed := x.stepsOwed - 1 }

theorem stepped_inFlight {x : Sweep} (h : InFlight s none none) (hx : s.sweep r = some x) :
    InFlight (s.setSweep r (some x.stepped)) none (some r) := by
  have hback : ∀ q y, (s.setSweep r (some x.stepped)).sweep q = some y →
      ∃ z, s.sweep q = some z ∧ y.group = z.group ∧ y.origin = z.origin ∧ y.cursor = z.cursor ∧
        y.remaining = z.remaining ∧ (q ≠ r → y = z) := by
    intro q y hy
    rw [sweep_setSweep] at hy
    split at hy
    · rename_i hq
      cases hy
      exact ⟨x, by rw [hq]; exact hx, rfl, rfl, rfl, rfl, fun hne => absurd hq hne⟩
    · exact ⟨y, hy, rfl, rfl, rfl, rfl, fun _ => rfl⟩
  have hforth : ∀ q z, s.sweep q = some z → ∃ y, (s.setSweep r (some x.stepped)).sweep q = some y ∧
      y.origin = z.origin ∧ s.unvisited y = s.unvisited z := by
    intro q z hz
    rw [sweep_setSweep]
    by_cases hq : q = r
    · subst hq
      rw [hx] at hz
      cases hz
      exact ⟨_, if_pos rfl, rfl, rfl⟩
    · exact ⟨z, by rw [if_neg hq]; exact hz, rfl, rfl⟩
  refine ⟨fun g => ?_, fun q y hy => ?_, fun q y hy hb => ?_, fun c q l y z hy hz hyc hzc => ?_, fun c => ?_⟩
  · have hcount := sweepsOf_setSweep s r (some x.stepped) g
    rw [hx] at hcount
    have hsame : (s.setSweep r (some x.stepped)).sweepsOf g = s.sweepsOf g := Nat.add_right_cancel hcount
    rw [groupSound_iff, hsame]
    exact (groupSound_iff s g).1 (h.groups g)
  · obtain ⟨z, hz, hgroup, -, hcursor, hremaining, -⟩ := hback q y hy
    obtain ⟨hleft, hwithin, hlt⟩ := h.placed q z hz
    rw [hgroup]
    exact ⟨by rw [hremaining]; exact hleft, by rw [hremaining]; exact hwithin, by rw [hcursor]; exact hlt⟩
  · obtain ⟨z, hz, -, -, -, -, hsame⟩ := hback q y hy
    rw [hsame fun hq => hb (by rw [hq])]
    exact h.waits q z hz nofun
  · obtain ⟨y', hy', -, hyo, -⟩ := hback q y hy
    obtain ⟨z', hz', -, hzo, -⟩ := hback l z hz
    exact h.apart c q l y' z' hy' hz' (hyo ▸ hyc) (hzo ▸ hzc)
  · have howes : (s.setSweep r (some x.stepped)).sweepOwes c = s.sweepOwes c := by
      funext p
      rw [Bool.eq_iff_iff, sweepOwes_iff, sweepOwes_iff]
      constructor
      · rintro ⟨q, y, hy, hyc, hp⟩
        obtain ⟨z, hz, hgroup, horigin, hcursor, hremaining, -⟩ := hback q y hy
        refine ⟨q, z, hz, horigin ▸ hyc, ?_⟩
        change p ∈ s.unvisited y at hp
        unfold State.unvisited at hp ⊢
        rwa [hgroup, hcursor, hremaining] at hp
      · rintro ⟨q, z, hz, hzc, hp⟩
        obtain ⟨y, hy, horigin, hlist⟩ := hforth q z hz
        exact ⟨q, y, hy, horigin.trans hzc, by rw [← hlist] at hp; exact hp⟩
    rw [howes]
    exact h.entries c

theorem afterVisits_inFlight (o : Origin) (v : Bool × State) (h : InFlight v.2 o.ref none) :
    InFlight (afterVisits o v) none none := by
  refine retakeIf_upholds _ _ ?_
  cases o with
  | request e => exact h.finishEntry
  | line n => exact h

theorem stepSweep_upholds {x : Sweep} (hx : s.sweep r = some x) : Upholds s (stepSweep r x s) := by
  intro h
  have hstepped := stepped_inFlight h hx
  have hwaits := h.waits r x hx nofun
  have hself : (s.setSweep r (some x.stepped)).sweep r = some x.stepped := by rw [sweep_setSweep, if_pos rfl]
  unfold stepSweep
  dsimp only
  split
  · refine afterVisits_inFlight x.origin _ ?_
    exact runVisits_inFlight (x := x.stepped) x.remaining hstepped hself le_rfl fun hzero =>
      absurd (hwaits.1.trans hwaits.2) (by rw [show x.stagger = 0 from hzero]; omega)
  · rename_i hmore
    refine hstepped.rested fun y hy => ?_
    rw [hself] at hy
    cases hy
    exact ⟨Nat.one_le_iff_ne_zero.2 hmore, (Nat.sub_le _ _).trans hwaits.2⟩

theorem execSweepStep_upholds (r : SweepNo) : Reaches (execSweepStep r s) (Upholds s) := by
  unfold execSweepStep
  split
  · rename_i x hx
    split
    · exact Upholds.event (stepSweep_upholds (s := s.quiet) hx)
    · exact Upholds.noEvent
  · exact Upholds.noEvent

/-! ## Inputs (R165, R166) -/

theorem execInputLineChange_upholds (n : LineNo) (high : Bool) : Reaches (execInputLineChange n high s) (Upholds s) := by
  unfold execInputLineChange
  split
  · exact Upholds.event ((Serves.refl none _).setLine _ _).upholds
  · exact Upholds.noEvent

theorem debouncedChange_upholds (n : LineNo) (h : Upholds s t) : Upholds s (debouncedChange n t) :=
  (((h.serves (((Serves.refl none t).setLine n _).raise .studioInput)).trans (judgeEdge_upholds n _ _)).serves
    (((Serves.refl none _).setLine n _).post (.line n))).trans (retakeIf_upholds _ _)

theorem execInputDebounceExpiry_upholds (n : LineNo) : Reaches (execInputDebounceExpiry n s) (Upholds s) := by
  unfold execInputDebounceExpiry
  split
  · refine Upholds.event ?_
    unfold inputDebounced
    dsimp only
    split
    · exact debouncedChange_upholds n ((Serves.refl none _).setLine n _).upholds
    · exact ((Serves.refl none _).setLine n _).upholds
  · exact Upholds.noEvent

end Sys2Proof.Machine
end

section
/-! The resets and the register window keep the invariant of requests in flight, and with them every command (O58). -/

set_option Elab.async false

namespace Sys2Proof.Machine

variable {e : EntryNo} {r : SweepNo} {s t u : State}

/-! ## Resets (R35, R36) -/

/-- A state without sweeps of requests, waiters, entries and accesses. -/
structure Quits (s : State) : Prop where
  groups : ∀ g, s.groupSound g = true
  sweeps : ∀ r x, s.sweep r = some x → x.Placed (s.members x.group).length ∧ x.Waits ∧ x.origin.ref = none
  inflight : ∀ e, s.entry e = none
  finals : ∀ e, s.finalWrites e = 0
  waiting : ∀ p, s.waiting p = []

theorem Quits.inFlight (h : Quits s) : InFlight s none none := by
  have hnone : ∀ e r x, s.sweep r = some x → x.origin ≠ .request e := fun e r x hx he => by
    have := (h.sweeps r x hx).2.2
    rw [he] at this
    cases this
  refine ⟨h.groups, fun r x hx => (h.sweeps r x hx).1, fun r x hx _ => (h.sweeps r x hx).2.1,
    fun e r q x y hx _ hxe => absurd hxe (hnone e r x hx), fun e => ?_⟩
  unfold State.fits
  rw [h.inflight, h.finals, show s.sweepOwes e = fun _ => false from funext (sweepOwes_of_none (hnone e)),
    show s.waiting = fun _ => [] from funext h.waiting]
  exact ⟨rfl, fun _ => by simp, fun _ _ => rfl, fun _ => by simp [pendsIn]⟩

theorem cleared_quits (regs : Registers) (s : State) : Quits (cleared regs s) := by
  have hsweep : ∀ r, (cleared regs s).sweep r = none := fun r => Table.get_replicate _ _
  refine ⟨?_, fun r x hx => ?_, fun e => Table.get_replicate _ _, fun e => rfl, fun p => ?_⟩
  · have hreset : ∀ g, State.reset.groupSound g = true := by decide
    exact hreset
  · rw [hsweep] at hx
    cases hx
  · exact congrArg Port.waiters (cleared_port (s := s) regs p)

theorem resetPart_upholds (regs : Registers) (s : State) : Upholds s (resetPart regs s) := fun _ =>
  (cleared_quits regs s).inFlight.serves (compareSupply_serves (.refl none _))

theorem rigReset_upholds (s : State) : Upholds s (rigReset s) :=
  ((Serves.refl none s).emit _).upholds.trans (resetPart_upholds _ _)

theorem cancelRequestSweeps_groupSound (l : List SweepNo) (h : ∀ g, s.groupSound g = true) (g : GroupNo) :
    (cancelRequestSweeps l s).groupSound g = true := by
  induction l generalizing s with
  | nil => exact h g
  | cons r l ih =>
    rw [cancelRequestSweeps_cons]
    refine ih fun k => ?_
    unfold cancelRequestSweep
    split
    · rename_i x hx
      split
      · exact freeSweep_groupSound h hx k
      · exact h k
    · exact h k

theorem kept_at_linkReset {o : Option Sweep} {x : Sweep} (h : keptAtLinkReset o = some x) :
    o = some x ∧ x.origin.ref = none := by
  rw [keptAtLinkReset_eq] at h
  cases o with
  | none => cases h
  | some y =>
    dsimp only at h
    split at h
    · cases h
    · rename_i n hn
      cases h
      exact ⟨rfl, by rw [hn]; rfl⟩

theorem linkReset_quits (h : InFlight s none none) : Quits (linkReset s) := by
  have hsweep : ∀ r x, (linkReset s).sweep r = some x → s.sweep r = some x ∧ x.origin.ref = none := fun r x hx => by
    have hall := cancelRequestSweeps_sweep allSweeps s r
    rw [if_pos (mem_allSweeps r)] at hall
    exact kept_at_linkReset (hall.symm.trans hx)
  have hmembers : ∀ g, (linkReset s).members g = s.members g := fun g => by
    have hdefn := (cancelRequestSweeps_kept allSweeps s).defns g
    exact congrArg (fun o : Option GroupDef => o.elim [] (·.members)) hdefn
  refine ⟨cancelRequestSweeps_groupSound allSweeps h.groups, fun r x hx => ?_, fun e => Table.get_replicate _ _,
    fun e => rfl, fun p => ?_⟩
  · obtain ⟨hold, href⟩ := hsweep r x hx
    rw [hmembers]
    exact ⟨h.placed r x hold, h.waits r x hold nofun, href⟩
  · exact congrArg Port.waiters (map_port (s := cancelRequestSweeps allSweeps s) (fun x => { x with waiters := [] }) p)

theorem linkReset_upholds (s : State) : Upholds s (linkReset s) := fun h => (linkReset_quits h).inFlight

/-! ## The register window (R182 to R186) -/

theorem writeControl_upholds (w : Word) (s : State) : Upholds s (writeControl w s) := by
  have hregs : ∀ g, Serves none s (s.setRegs g) := (Serves.refl none s).setRegs
  unfold writeControl
  split
  · exact rigReset_upholds s
  · unfold controlFields
    dsimp only
    split
    · exact (hregs _).attachWalker.upholds
    · exact (hregs _).detachWalker.upholds
    · exact (hregs _).upholds

theorem writeBoardLo_serves (w : Word) (s : State) : Serves none s (writeBoardLo w s) := by
  unfold writeBoardLo
  split
  · exact (Serves.refl none s).setRegs _
  · exact .refl none s

theorem writeBoardHi_serves (w : Word) (s : State) : Serves none s (writeBoardHi w s) := by
  unfold writeBoardHi
  split
  · exact (Serves.refl none s).setRegs _
  · exact .refl none s

theorem writeWindow_upholds (r : Reg) (w : Word) (s : State) : Upholds s (writeWindow r w s) := by
  cases r with
  | ident => exact .refl s
  | control => exact writeControl_upholds w s
  | attn => exact ((Serves.refl none s).setRegs _).upholds
  | attnMask => exact ((Serves.refl none s).setRegs _).upholds
  | nudge => exact (Serves.refl none s).nudgeWalker.upholds
  | boardLo => exact (writeBoardLo_serves w s).upholds
  | boardHi => exact (writeBoardHi_serves w s).upholds
  | unused => exact .refl s

theorem execRegisterWrite_upholds (offset : BitVec 5) (z : AccessSize) (w : Word) :
    Reaches (execRegisterWrite offset z w s) (Upholds s) := by
  unfold execRegisterWrite
  split
  · exact Upholds.noEvent
  · exact Upholds.event (writeWindow_upholds _ _ _)

theorem control_upholds (w : Word) : Reaches (event (writeControl w) s) (Upholds s) :=
  Upholds.event (writeControl_upholds w _)

/-! ## Every command -/

theorem exec_upholds (i : Instr) (s : State) : Reaches (exec i s) (Upholds s) := by
  cases i with
  | powerOnReset => exact Upholds.event (resetPart_upholds _ _)
  | linkReset => exact Upholds.event (linkReset_upholds _)
  | attach w => exact control_upholds _
  | detach w => exact control_upholds _
  | poll w => exact control_upholds _
  | rigReset w => exact control_upholds _
  | clearPowerOn w => exact control_upholds _
  | clearRig w => exact control_upholds _
  | clearLink w => exact control_upholds _
  | nudge z w => exact Upholds.event (Serves.refl none _).nudgeWalker.upholds
  | boardLo w => exact Upholds.event (writeBoardLo_serves w _).upholds
  | boardHi w => exact Upholds.event (writeBoardHi_serves w _).upholds
  | attn w => exact Upholds.event ((Serves.refl none _).setRegs _).upholds
  | attnMask w => exact Upholds.event ((Serves.refl none _).setRegs _).upholds
  | registerWrite offset z w => exact execRegisterWrite_upholds offset z w
  | beatBoundary => exact execBeatBoundary_upholds
  | keepaliveBoundary p => exact execKeepaliveBoundary_upholds p
  | polling => exact execPolling_upholds
  | sweepStep r => exact execSweepStep_upholds r
  | settleExpiry p => exact execSettleExpiry_upholds p
  | wakePulseEnd p => exact execWakePulseEnd_upholds p
  | bootLimitExpiry p => exact execBootLimitExpiry_upholds p
  | holdLimitExpiry p => exact execHoldLimitExpiry_upholds p
  | resumeLimitExpiry p => exact execResumeLimitExpiry_upholds p
  | stopLimitExpiry p => exact execStopLimitExpiry_upholds p
  | ackWaitExpiry p => exact execAckWaitExpiry_upholds p
  | retryGapExpiry p => exact execRetryGapExpiry_upholds p
  | partPhraseEndOk p => exact execPartPhraseEndOk_upholds p
  | hello p => exact execHello_upholds p
  | settled p => exact execSettled_upholds p
  | awake p => exact execAwake_upholds p
  | parting p => exact execParting_upholds p
  | cameraPhraseDiscarded p => exact execCameraPhraseDiscarded_upholds p
  | receiveLimit p => exact execReceiveLimit_upholds p
  | plugSenseChange p seated => exact execPlugSenseChange_upholds p seated
  | plugDebounceExpiry p => exact execPlugDebounceExpiry_upholds p
  | readerJoin p => exact execReaderJoin_upholds p
  | readerWithdrawal p => exact execReaderWithdrawal_upholds p
  | tryEnd r => exact execTryEnd_upholds r
  | plugReadRetryExpiry => exact execPlugReadRetryExpiry_upholds
  | identityResult p => exact execIdentityResult_upholds p
  | claim p => exact execClaim_upholds p
  | withdrawal p => exact execWithdrawal_upholds p
  | release p => exact execRelease_upholds p
  | returnedGrant p => exact execReturnedGrant_upholds p
  | grant p => exact execGrant_upholds p
  | grantHistoryExpiry i => exact execGrantHistoryExpiry_upholds i
  | supplyTrip mv => exact supplyMoves_upholds mv
  | reArm mv => exact supplyMoves_upholds mv
  | trip => exact execTrip_upholds
  | tripCut p => exact execTripCut_upholds p
  | holdoffExpiry => exact execHoldoffExpiry_upholds
  | tripLevelChange => exact execTripLevelChange_upholds
  | headerReadComplete data => exact execHeaderReadComplete_upholds data
  | linkReadComplete link => exact execLinkReadComplete_upholds link
  | blockReadComplete data => exact execBlockReadComplete_upholds data
  | profileListReadComplete data => exact execProfileListReadComplete_upholds data
  | profileReplacement p => exact execProfileReplacement_upholds p
  | blockWriteComplete => exact execBlockWriteComplete_upholds
  | headerWriteComplete => exact execHeaderWriteComplete_upholds
  | accessFailure a => exact execAccessFailure_upholds a
  | slotWriteComplete => exact execSlotWriteComplete_upholds
  | inputLineChange n high => exact execInputLineChange_upholds n high
  | inputDebounceExpiry n => exact execInputDebounceExpiry_upholds n
  | tick => exact execTick_upholds
  | symbolAcknowledged p => exact execSymbolAcknowledged_upholds p
  | cameraStartMark p => exact execCameraStartMark_upholds p
  | cameraSymbolReceived p data parity => exact execCameraSymbolReceived_upholds p data parity

theorem step_upholds (h : step s = .next t) : Upholds s t := by
  unfold step at h
  split at h
  · cases h; exact .refl s
  · rename_i c rest _
    exact (Serves.of_ports rfl rfl rfl rfl rfl : Serves none s (s.withPending rest)).upholds.trans
      (exec_upholds c _ t h)

/-- Settles O58: each command keeps the agreement, by what it does to one entry, its waiters and the sweep that owes it
ports; the soundness of the ports is not used. -/
theorem stepsKeepRequestsSound : Obligations.StepsKeepRequestsSound := by
  unfold Obligations.StepsKeepRequestsSound
  intro s t _ hs h
  rw [requestsSound_iff] at hs ⊢
  exact step_upholds h hs

end Sys2Proof.Machine
end

section
/-! An event that leaves nothing to begin ends as its body leaves it; and how an event ends whose body places accesses
alone. -/

set_option Elab.async false

namespace Sys2Proof.Machine

variable {s t u : State}

/-! ## Settled states -/

/-- The writer of a settled state is silent already wherever it has to be (R180). -/
theorem silenceWriter_of_settled (h : s.settled = true) : silenceWriter s = s := by
  unfold silenceWriter
  split
  · rfl
  · rename_i ha
    simp only [State.settled, if_neg ha, Bool.and_eq_true, List.isEmpty_iff] at h
    obtain ⟨⟨-, hposting, horphan⟩, -⟩ := h
    have hcurrent : s.writer.current.map (fun w => { w with orphan := true }) = s.writer.current := by
      cases hc : s.writer.current with
      | none => rfl
      | some w =>
        rw [hc, Option.all_some] at horphan
        rw [Option.map_some, ← horphan]
    rw [hcurrent, ← hposting]
    rfl

/-- The writer of a settled state has no write to begin (R178). -/
theorem beginSlotWrite_of_settled (h : s.settled = true) : beginSlotWrite s = s := by
  unfold beginSlotWrite
  split
  · rename_i ha
    split
    · rename_i hcurrent hposting hboard
      simp [State.settled, ha, hcurrent, hposting, hboard] at h
    · rfl
  · rfl

/-- A settled state ends an event as it is. -/
theorem settle_eq_self (h : s.settled = true) : settle s = s := by
  rw [settle, finishDetach_of_settled h rfl rfl, silenceWriter_of_settled h, beginSlotWrite_of_settled h,
    beginAccess_of_settled h rfl]

theorem event_of_settled {body : State → State} (h : (body s.quiet).settled = true) :
    event body s = .next (body s.quiet) := by
  rw [event_eq, settle_eq_self h]

/-- Whether a state is settled depends on the walker, the writer and the entries alone. -/
theorem settled_congr (hwalker : t.walker = s.walker) (hinflight : t.inflight = s.inflight)
    (hwriter : t.writer = s.writer) : t.settled = s.settled := by
  simp [State.settled, hwalker, hinflight, hwriter]

/-! ## Accesses placed on a settled state -/

/-- A calm change that posts nothing begins no slot write. -/
theorem settle_writer_kept (hc : Calm s u) (h : s.settled = true) (hwriter : u.writer = s.writer) :
    (settle u).writer = s.writer := by
  have hsettled : (u.withBoardOf s).settled = true :=
    (settled_congr (s := s) (t := u.withBoardOf s) rfl rfl hwriter).trans h
  rw [settle_writer hc h, settle_eq_self hsettled]
  exact hwriter

/-- The access that begins stays due (R117). -/
@[simp] theorem beginAccess_due (s : State) : (beginAccess s).walker.due = s.walker.due := by
  unfold beginAccess
  split
  · rename_i a rest hcurrent haccesses
    have hbus : (busAccess a s).access = a ∧ (busAccess a s).atHalt = false := by cases a <;> exact ⟨rfl, rfl⟩
    split
    · simp [Walker.due, hcurrent, haccesses, hbus.1, hbus.2]
    · rfl
  · rfl

theorem settle_rigKept (h : RigKept s u) : RigKept s (settle u) := by
  simpa [RigKept, ClockAndLinesKept, GroupsKept, SupplyKept] using h

/-- What is due is still due as a calm event ends. -/
theorem settle_due (hc : Calm s u) (h : s.settled = true) : (settle u).walker.due = u.walker.due := by
  simp [settle, hc.finishDetach h]

end Sys2Proof.Machine
end

section
/-! The cadence: ticks, beat boundaries and polling (O7, O8). -/

set_option Elab.async false

namespace Sys2Proof.Machine

variable {s : State}

/-! ## A beat boundary (R39, R40) -/

theorem boundaryDue_iff (c : Cadence) : c.boundaryDue = true ↔ c.beatMs ≤ c.tickPhase := decide_eq_true_iff

theorem takeBeat_settled (s : State) : (takeBeat s).settled = s.settled := rfl

/-- A beat boundary that is due leaves a settled state settled, so that nothing else happens in its event. -/
theorem exec_beatBoundary (h : s.settled = true) (hdue : s.cadence.beatMs ≤ s.cadence.tickPhase) :
    exec .beatBoundary s = .next (takeBeat s.quiet) := by
  have hexec : exec .beatBoundary s = event takeBeat s := if_pos ((boundaryDue_iff _).2 hdue)
  exact hexec.trans (event_of_settled ((takeBeat_settled _).trans h))

theorem takeBeat_sweep (s : State) (r : SweepNo) : (takeBeat s).sweep r = (s.sweep r).map Sweep.owe :=
  owing_sweep s r

theorem takeBeat_port (s : State) (p : PortNo) :
    (takeBeat s).port p = { s.port p with boundaries := (s.port p).boundaries ++ [s.cadence.beat + 1] } :=
  map_port _ p

/-- A pending beat length is applied at the boundary (R40). -/
theorem takeBeat_cadence (s : State) :
    (takeBeat s).cadence =
      { tickPhase := 0, beat := s.cadence.beat + 1, pendingBeatMs := none
        beatMs := match s.cadence.pendingBeatMs with | some b => b | none => s.cadence.beatMs } := by
  have hlength : (takeBeat s).cadence.beatMs = s.cadence.pendingBeatMs.getD s.cadence.beatMs := rfl
  rw [Cadence.mk.injEq]
  refine ⟨rfl, rfl, ?_, rfl⟩
  rw [hlength]
  cases s.cadence.pendingBeatMs <;> rfl

/-! ## Polling (R43) -/

/-- The state with a boundary fewer at the walker. -/
def State.boundaryOffWalker (s : State) : State :=
  s.setWalker { s.walker with boundaries := s.walker.boundaries - 1 }

/-- A look asked for is a link read that joins the access list (R43). -/
theorem pollWalker_eq (s : State) :
    pollWalker s =
      if s.walker.state = .watching ∧ s.regs.poll = true ∧ s.walker.hasLinkRead = false then s.place .linkRead
      else s := rfl

theorem place_calm (s : State) (a : Access) : Calm s (s.place a) := ⟨⟨[a], rfl⟩, fun _ => rfl⟩

theorem place_due (s : State) (a : Access) : (s.place a).walker.due = s.walker.due ++ [a] := by
  simp [State.place, Walker.due]

theorem pollWalker_calm (s : State) : Calm s (pollWalker s) := by
  rw [pollWalker_eq]
  split
  · exact place_calm s _
  · exact .refl s

/-- What a look leaves alone. -/
theorem pollWalker_keeps_rest (s : State) :
    PortsKept s (pollWalker s) ∧ RigKept s (pollWalker s) ∧ (pollWalker s).reader = s.reader ∧
      (pollWalker s).stampCounter = s.stampCounter ∧ (pollWalker s).inflight = s.inflight ∧
      (pollWalker s).writer = s.writer ∧ RegsKept s (pollWalker s) := by
  rw [pollWalker_eq]
  split <;> exact ⟨rfl, ⟨rfl, ⟨rfl, rfl⟩, ⟨rfl, rfl, rfl⟩, rfl, rfl⟩, rfl, rfl, rfl, rfl, rfl⟩

theorem pollWalker_due (s : State) :
    (pollWalker s).walker.due =
      if s.walker.state = .watching ∧ s.regs.poll = true ∧ s.walker.hasLinkRead = false then
        s.walker.due ++ [.linkRead]
      else s.walker.due := by
  rw [pollWalker_eq]
  split
  · exact place_due s _
  · rfl

/-- POLLING begins at most the look it asks for (R43). -/
theorem exec_polling (h : 0 < s.walker.boundaries) :
    exec .polling s = .next (settle (pollWalker s.quiet.boundaryOffWalker)) := by
  have hexec : exec .polling s = event takePoll s := if_pos h
  exact hexec.trans (event_eq _ _)

/-- Settles O8: the record that a boundary leaves is read off `takeBeat`; the walker's look is a calm change, which ends
with what it placed still due. -/
theorem beatBoundaryAdvancesTheBeat : Obligations.BeatBoundaryAdvancesTheBeat := by
  refine ⟨fun s h hdue => ?_, fun s h hb => ?_⟩
  · exact ⟨_, exec_beatBoundary h hdue, takeBeat_cadence s.quiet, takeBeat_port s.quiet, rfl, takeBeat_sweep s.quiet,
      rfl, rfl, rfl, ⟨rfl, rfl⟩, rfl, rfl, rfl, rfl, rfl, rfl⟩
  · have hsettled : s.quiet.boundaryOffWalker.settled = true := h
    have hcalm := pollWalker_calm s.quiet.boundaryOffWalker
    have hwalker := settle_walkerKept hcalm hsettled
    have hdue : (settle (pollWalker s.quiet.boundaryOffWalker)).walker.due =
        if s.walker.state = .watching ∧ s.regs.poll = true ∧ s.walker.hasLinkRead = false then
          s.walker.due ++ [.linkRead]
        else s.walker.due := (settle_due hcalm hsettled).trans (pollWalker_due _)
    obtain ⟨hports, hrig, hreader, hstamp, hinflight, hwriter, hregs⟩ :=
      pollWalker_keeps_rest s.quiet.boundaryOffWalker
    refine ⟨_, exec_polling hb, (settle_ports _).trans hports, settle_rigKept hrig, (settle_reader _).trans hreader,
      (settle_stampCounter _).trans hstamp, (settle_inflight _).trans hinflight,
      settle_writer_kept (s := s.quiet.boundaryOffWalker) hcalm hsettled hwriter,
      (settle_regs hcalm hsettled).trans hregs, ?_, ?_, ?_, ?_, ?_⟩
    · rw [hwalker]; rfl
    · rw [hwalker]; rfl
    · rw [hwalker]; rfl
    · rw [hwalker]; rfl
    · rw [hdue]
      split_ifs <;> rfl

/-! ## A tick (R37, R38) -/

/-- A tick with no boundary standing counts every deadline down and advances the phase. -/
theorem takeTick_of_not_due (h : s.cadence.tickPhase < s.cadence.beatMs) :
    takeTick s = { countAll s with cadence := { s.cadence with tickPhase := s.cadence.tickPhase + 1 } } := by
  have hnot : ¬ s.cadence.boundaryDue = true := fun hdue => absurd ((boundaryDue_iff _).1 hdue) (Nat.not_le.2 h)
  unfold takeTick
  rw [if_neg hnot]
  rfl

/-- After a boundary of a sound cadence none stands. -/
theorem takeBeat_not_due (h : s.cadence.sound = true) : ¬ (takeBeat s).cadence.boundaryDue = true := fun hdue => by
  obtain ⟨⟨hten, -⟩, -⟩ := (cadenceSound_iff _).1 (takeBeat_cadence_sound h)
  have hle : 10 ≤ 0 := hten.trans ((boundaryDue_iff _).1 hdue)
  exact absurd hle (by decide)

/-- A boundary that still stands is taken before the tick (log entry 7). -/
theorem takeTick_of_due (hs : s.cadence.sound = true) (h : s.cadence.beatMs ≤ s.cadence.tickPhase) :
    takeTick s = takeTick (takeBeat s) := by
  unfold takeTick
  rw [if_pos ((boundaryDue_iff _).2 h), if_neg (takeBeat_not_due hs)]

/-- A port one tick on, with the wait of a debounced insertion (R38, R69; log entry 43). -/
theorem countDown_eq (x : Port) :
    x.countDown =
      { x with
        timer := x.timer.map (· - 1), wakePulse := x.wakePulse.map (· - 1)
        plugDebounce := x.plugDebounce.map (· - 1)
        insertWait :=
          if x.plugDebounce = some 0 ∧ x.plugLevel = true ∧ x.plugged = false then x.insertWait + 1 else 0
        lane := x.lane.countDown } := by
  simp only [Port.countDown, insertDue_iff]
  rfl

theorem countAll_line (s : State) (n : LineNo) :
    (countAll s).line n = { s.line n with debounce := (s.line n).debounce.map (· - 1) } :=
  Table.get_map _ s.lines n

theorem rigSound_cadence (h : s.rigSound = true) : s.cadence.sound = true := by
  simp only [State.rigSound, Bool.and_eq_true] at h
  exact h.2

theorem exec_tick (s : State) : exec .tick s = .next (settle (takeTick s.quiet)) := rfl

/-- TICK with no boundary standing begins nothing. -/
theorem exec_tick_of_not_due (h : s.settled = true) (hphase : s.cadence.tickPhase < s.cadence.beatMs) :
    exec .tick s =
      .next { countAll s.quiet with cadence := { s.cadence with tickPhase := s.cadence.tickPhase + 1 } } := by
  have htick := takeTick_of_not_due (s := s.quiet) hphase
  have hsettled : (takeTick s.quiet).settled = true := by
    rw [htick]
    exact (settled_congr rfl rfl rfl).trans h
  exact (event_of_settled hsettled).trans (congrArg _ htick)

/-- Settles O7: with no boundary standing every deadline is read off `countAll`; one that stands is taken first, which
leaves none. -/
theorem tickCountsEveryDeadlineDown : Obligations.TickCountsEveryDeadlineDown := by
  intro s h hrig
  refine ⟨fun hphase => ?_, fun hdue => ?_⟩
  · refine ⟨_, exec_tick_of_not_due h hphase, rfl, fun p => ?_, ?_, ?_, countAll_line s.quiet, rfl, rfl, rfl,
      ⟨rfl, rfl⟩, ⟨rfl, rfl, rfl⟩, rfl, rfl⟩
    · exact (map_port (s := s) Port.countDown p).trans (countDown_eq _)
    · rfl
    · rfl
  · refine ⟨_, exec_beatBoundary h hdue, ?_⟩
    have htick := takeTick_of_due (s := s.quiet) (rigSound_cadence hrig) hdue
    rw [exec_tick, exec_tick, htick]
    rfl

end Sys2Proof.Machine
end

section
/-! Keepalive boundaries and lapses (O9). -/

set_option Elab.async false

namespace Sys2Proof.Machine

variable {p : PortNo} {b : Word} {rest : List Word} {c : ClassRecord} {s : State}

/-! ## A boundary at a port (R41) -/

theorem exec_keepaliveBoundary (h : (s.port p).boundaries = b :: rest) :
    exec (.keepaliveBoundary p) s = portEvent p (takeBoundary p b rest) s := by
  simp [exec, execKeepaliveBoundary, h]

theorem isKeepalive_iff (period : Nat) : isKeepalive p b period = true ↔ (b.toNat + p.val) % period = 0 :=
  beq_iff_eq

/-- The port with these boundaries left. -/
def Port.boundariesLeft (rest : List Word) (x : Port) : Port := { x with boundaries := rest }

/-- The port at a keepalive boundary with silence below its lapse limit, before the grant point (R42). -/
def Port.keepOwed (rest : List Word) (x : Port) : Port :=
  { x with boundaries := rest, silence := x.silence + 1, keepDue := true }

/-- The port at a lapse, before its rail is cut (R32). -/
def Port.lapseNoted (rest : List Word) (x : Port) : Port := { x with boundaries := rest, stale := true }

/-- A boundary at a port that is not alive, with or without a class record. -/
theorem takeBoundary_of_not_alive (ha : (s.port p).state.isAlive = false) :
    takeBoundary p b rest s = s.modPort p (Port.boundariesLeft rest) := by
  unfold takeBoundary
  simp only [port_modPort_self, ha, Bool.false_eq_true, false_and, if_false]
  cases (s.port p).classRecord <;> rfl

/-- A boundary that is no keepalive boundary of the port (R41). -/
theorem takeBoundary_of_not_keepalive (hc : (s.port p).classRecord = some c)
    (hk : (b.toNat + p.val) % c.keepalivePeriod.toNat ≠ 0) :
    takeBoundary p b rest s = s.modPort p (Port.boundariesLeft rest) := by
  have hnot : isKeepalive p b c.keepalivePeriod.toNat = false :=
    Bool.eq_false_iff.2 fun h => hk ((isKeepalive_iff _).1 h)
  unfold takeBoundary
  simp only [port_modPort_self, hc, hnot, Bool.false_eq_true, and_false, if_false]
  rfl

/-- A keepalive boundary of an alive port (R41). -/
theorem takeBoundary_of_keepalive (hc : (s.port p).classRecord = some c) (ha : (s.port p).state.isAlive = true)
    (hk : (b.toNat + p.val) % c.keepalivePeriod.toNat = 0) :
    takeBoundary p b rest s = keepaliveDue p c (s.modPort p (Port.boundariesLeft rest)) := by
  unfold takeBoundary
  simp only [port_modPort_self, hc, ha, (isKeepalive_iff _).2 hk, and_self, if_true]
  rfl

/-- A keepalive boundary with silence below the lapse limit (R42). -/
theorem takeBoundary_of_silence (hc : (s.port p).classRecord = some c) (ha : (s.port p).state.isAlive = true)
    (hk : (b.toNat + p.val) % c.keepalivePeriod.toNat = 0) (hs : (s.port p).silence < c.lapseLimit.toNat) :
    takeBoundary p b rest s = grantPoint p (s.modPort p (Port.keepOwed rest)) := by
  have hsilence : ((s.modPort p (Port.boundariesLeft rest)).port p).silence < c.lapseLimit.toNat := by
    rw [port_modPort_self]; exact hs
  rw [takeBoundary_of_keepalive hc ha hk, keepaliveDue, if_pos hsilence, modPort_modPort]
  rfl

/-- A keepalive boundary with silence at the lapse limit (R32). -/
theorem takeBoundary_of_lapse (hc : (s.port p).classRecord = some c) (ha : (s.port p).state.isAlive = true)
    (hk : (b.toNat + p.val) % c.keepalivePeriod.toNat = 0) (hs : c.lapseLimit.toNat ≤ (s.port p).silence) :
    takeBoundary p b rest s = lapse p (s.modPort p (Port.boundariesLeft rest)) := by
  have hsilence : ¬ ((s.modPort p (Port.boundariesLeft rest)).port p).silence < c.lapseLimit.toNat := by
    rw [port_modPort_self]; exact Nat.not_lt.2 hs
  rw [takeBoundary_of_keepalive hc ha hk, keepaliveDue, if_neg hsilence]

/-! ## Boundaries that lapse nothing (R41, R42) -/

/-- A boundary that gives no outcome and enters no state. -/
theorem boundary_quiet (h : s.settled = true) (hb : (s.port p).boundaries = b :: rest)
    (hr : PortRun p false s.quiet (takeBoundary p b rest s.quiet))
    (hregs : (takeBoundary p b rest s.quiet).regs = s.regs) :
    ∃ t, exec (.keepaliveBoundary p) s = .next t ∧ OnlyPort p s t ∧ RegsKept s t ∧
      t.port p = (takeBoundary p b rest s.quiet).port p := by
  obtain ⟨t, ht, he, honly⟩ := portEvent_ends_of_quietRun h hr
  exact ⟨t, (exec_keepaliveBoundary hb).trans ht, honly, he.regs.trans hregs, he.port⟩

/-- A boundary that changes nothing but that it has been taken. -/
theorem boundary_passes (h : s.settled = true) (hb : (s.port p).boundaries = b :: rest)
    (hu : takeBoundary p b rest s.quiet = s.quiet.modPort p (Port.boundariesLeft rest)) :
    ∃ t, exec (.keepaliveBoundary p) s = .next t ∧ OnlyPort p s t ∧ RegsKept s t ∧
      t.port p = { s.port p with boundaries := rest } := by
  obtain ⟨t, ht, honly, hregs, hport⟩ :=
    boundary_quiet h hb (by rw [hu]; exact PortRun.refl.mod) (by rw [hu]; rfl)
  exact ⟨t, ht, honly, hregs, by rw [hport, hu, port_modPort_self]; rfl⟩

/-- A port with keepalive due begins a KEEP at a FREE lane, and keeps its step claim (R61). -/
theorem granted_of_keepDue {x : Port} (h : x.keepDue = true) :
    x.granted = { x with lane := if x.lane = .free then .sending (newPhrase .keep []) 2 else x.lane } := by
  unfold Port.granted
  by_cases hl : x.lane = .free
  · rw [if_pos hl, if_pos h, if_pos hl]; rfl
  · rw [if_neg hl, if_neg hl]

/-- A keepalive boundary that is no lapse (R42). -/
theorem keepalive_sends (h : s.settled = true) (hb : (s.port p).boundaries = b :: rest)
    (hc : (s.port p).classRecord = some c) (ha : (s.port p).state.isAlive = true)
    (hk : (b.toNat + p.val) % c.keepalivePeriod.toNat = 0) (hs : (s.port p).silence < c.lapseLimit.toNat) :
    ∃ t, exec (.keepaliveBoundary p) s = .next t ∧ OnlyPort p s t ∧ RegsKept s t ∧
      t.port p =
        { s.port p with
          boundaries := rest, silence := (s.port p).silence + 1, keepDue := true
          lane := if (s.port p).lane = .free then .sending (newPhrase .keep []) 2 else (s.port p).lane } := by
  have hu : takeBoundary p b rest s.quiet = grantPoint p (s.quiet.modPort p (Port.keepOwed rest)) :=
    takeBoundary_of_silence hc ha hk hs
  obtain ⟨t, ht, honly, hregs, hport⟩ :=
    boundary_quiet h hb (by rw [hu]; exact PortRun.refl.mod.grantPoint) (by rw [hu]; exact grantPoint_regs _ _)
  refine ⟨t, ht, honly, hregs, ?_⟩
  rw [hport, hu, grantPoint_port, port_modPort_self, granted_of_keepDue rfl]
  rfl

/-! ## Lapses (R32) -/

theorem lapseNoted_aside (rest : List Word) (x : Port) : x.Aside (x.lapseNoted rest) :=
  ⟨rfl, ⟨rfl, rfl, rfl⟩, rfl⟩

/-- The port with one recovery more. -/
def Port.recoveryCounted (x : Port) : Port := { x with recovery := x.recovery + 1 }

/-- A lapse at a boundary, by the target and the recovery count before it (R32). -/
theorem lapse_eq :
    lapse p (s.modPort p (Port.boundariesLeft rest)) =
      if (s.port p).target = .off then enterOff p (cutRail p .lapsed (s.modPort p (Port.lapseNoted rest)))
      else if (s.port p).recovery < 2 then
        queueUp p ((cutRail p .lapsed (s.modPort p (Port.lapseNoted rest))).modPort p Port.recoveryCounted)
      else fault p .lapse (s.modPort p (Port.lapseNoted rest)) := by
  unfold lapse
  simp only [port_modPort_self, modPort_modPort]
  rfl

/-- A lapse that sends the port back to QUEUED with a recovery more. -/
theorem lapse_requeues {u t : State} (he : PortEventEnds p s u t)
    (hu : u = queueUp p ((cutRail p .lapsed (s.quiet.modPort p (Port.lapseNoted rest))).modPort p Port.recoveryCounted))
    (hon : (s.port p).railOn = true) :
    t.port p =
        { ((s.port p).lapseNoted rest).dark .queued s.cadence.beat .lapsed with
          recovery := (s.port p).recovery + 1, toGovernor := (s.port p).toGovernor ++ [.claim] } ∧
      QueuedEntered p .lapsed [.claim] s t := by
  have hon' : ((s.port p).lapseNoted rest).railOn = true := hon
  have hq : (s.port p).state ≠ .queued := Port.state_ne_of_railOn hon rfl
  have hport : t.port p =
      { ((s.port p).lapseNoted rest).dark .queued s.cadence.beat .lapsed with
        recovery := (s.port p).recovery + 1, toGovernor := (s.port p).toGovernor ++ [.claim] } := by
    rw [he.port, hu, queueUp_port, port_modPort_self, cutRail_port, port_modPort_self, port_quiet,
      Port.railCut_of_on _ hon']
    simp [Port.queuedUp, Port.entered, Port.told, Port.dark, Port.recoveryCounted, Port.lapseNoted, hq, PState.isAlive]
  have hr : PortRun p false s.quiet u := by
    rw [hu]
    exact ((PortRun.refl.mod.cutRail .lapsed).mod).queueUp
  refine ⟨hport, by rw [hport]; rfl, by rw [hport]; rfl, by rw [hport]; exact ⟨rfl, rfl, rfl⟩,
    by rw [hport]; exact ⟨rfl, rfl, rfl, rfl, rfl, rfl, rfl, rfl⟩, by rw [hport], by rw [hport]; rfl,
    (he.board ⟨hr.walker, hr.inflight⟩).2, ?_⟩
  rw [causesSet_iff, he.regs, hu]
  simp [Port.recoveryCounted, Port.lapseNoted, hq]

/-- A keepalive boundary that is a lapse (R32). -/
theorem keepalive_lapses (h : s.settled = true) (hb : (s.port p).boundaries = b :: rest)
    (hc : (s.port p).classRecord = some c) (ha : (s.port p).state.isAlive = true)
    (hk : (b.toNat + p.val) % c.keepalivePeriod.toNat = 0) (hs : c.lapseLimit.toNat ≤ (s.port p).silence) :
    ∃ t, exec (.keepaliveBoundary p) s = .next t ∧ PortAndOutcomes p s t ∧ (t.port p).stale = true ∧
      (t.port p).stamp = (s.port p).stamp ∧ (s.port p).cableKept (t.port p) ∧
      (t.port p).profile = (s.port p).profile ∧ (t.port p).boundaries = rest ∧
      (if (s.port p).target = .off then
          OffEntered p .lapsed s t ∧ (t.port p).toGovernor = (s.port p).toGovernor
        else if (s.port p).recovery < 2 then
          QueuedEntered p .lapsed [.claim] s t ∧ (t.port p).recovery = (s.port p).recovery + 1 ∧
            (t.port p).bootAttempts = (s.port p).bootAttempts ∧ (t.port p).tripCount = (s.port p).tripCount
        else FaultEntered p .lapse s t ∧ (t.port p).toGovernor = (s.port p).toGovernor ∧
          (s.port p).countsKept (t.port p)) := by
  obtain ⟨t, ht, he, hframe⟩ := portEvent_ends_of_run h (PortRun.refl.takeBoundary (p := p) b rest)
  have hexec := (exec_keepaliveBoundary hb).trans ht
  have hu := (takeBoundary_of_lapse (s := s.quiet) (rest := rest) hc ha hk hs).trans lapse_eq
  have hon := railOn_of_alive ha
  have haside := lapseNoted_aside rest (s.port p)
  rw [port_quiet] at hu
  split_ifs at hu ⊢ with htar hrec
  · obtain ⟨hport, hentered⟩ := (cutToOff_ends he hu haside hon).1 htar
    refine ⟨t, hexec, hframe, ?_, ?_, ?_, ?_, ?_, hentered, ?_⟩ <;> rw [hport]
    · rfl
    · rfl
    · exact ⟨rfl, rfl, rfl, rfl, rfl, rfl⟩
    all_goals rfl
  · obtain ⟨hport, hentered⟩ := lapse_requeues he hu hon
    refine ⟨t, hexec, hframe, ?_, ?_, ?_, ?_, ?_, hentered, ?_, ?_, ?_⟩ <;> rw [hport]
    · rfl
    · rfl
    · exact ⟨rfl, rfl, rfl, rfl, rfl, rfl⟩
    all_goals rfl
  · obtain ⟨hport, hentered⟩ := fault_ends he hu haside hon
    rw [not_warming_of_alive ha, if_neg Bool.false_ne_true, List.append_nil] at hport
    refine ⟨t, hexec, hframe, ?_, ?_, ?_, ?_, ?_, hentered, ?_, ?_⟩ <;> rw [hport]
    · rfl
    · rfl
    · exact ⟨rfl, rfl, rfl, rfl, rfl, rfl⟩
    · rfl
    · rfl
    · exact ⟨rfl, rfl, rfl⟩

/-- Settles O9: a boundary passes, sends a KEEP or is a lapse, each by its own lemma. -/
theorem keepaliveBoundariesAndLapses : Obligations.KeepaliveBoundariesAndLapses :=
  ⟨fun _ _ _ _ h hb ha => boundary_passes h hb (takeBoundary_of_not_alive ha),
    fun _ _ _ _ _ h hb hc =>
      ⟨fun _ hk => boundary_passes h hb (takeBoundary_of_not_keepalive hc hk),
        fun ha hk hs => keepalive_sends h hb hc ha hk hs⟩,
    fun _ _ _ _ _ h hb hc ha hk hs => keepalive_lapses h hb hc ha hk hs⟩

end Sys2Proof.Machine
end

section
/-! Check symbols, the phrases the part frames and the judgement of a camera's phrase (O13). -/

set_option Elab.async false

namespace Sys2Proof.Machine

/-! ## Check symbols (R48) -/

theorem checkSymbol_cons (c : Byte) (l : List Byte) : checkSymbol (c :: l) = l.foldl (· ^^^ ·) c := by
  simp [checkSymbol]

/-- A step phrase other than SET has no payload (Table 3-1). -/
theorem stepPayload_of_ne_set (x : Port) {n : PhraseName} (h : n ≠ .set) : x.stepPayload n = some [] := by
  cases n with
  | set => exact absurd rfl h
  | keep | hold | release | halt => rfl

theorem stepPayload_set {x : Port} {e : ProfileEntry} (h : x.profile[x.cursor]? = some e) :
    x.stepPayload .set = some e.payload := by
  simp only [Port.stepPayload, h, ProfileEntry.payload]

/-! ## The judgement (R56) -/

/-- The symbols of a camera's phrase between its marks (Table 3-1). -/
def CameraPhrase.symbols : CameraPhrase → List Byte
  | .hello c f => framed 0x80 [c, f]
  | .settled => framed 0x90 []
  | .awake => framed 0x91 []
  | .parting => framed 0x9F []

theorem judgePhrase_of_damaged {rx : RxBuffer} (h : rx.damaged = true) : judgePhrase rx = none := by
  rw [judgePhrase, if_pos h]

theorem judgePhrase_of_symbols {rx : RxBuffer} {ph : CameraPhrase} (hd : rx.damaged = false)
    (h : rx.stored = ph.symbols) : judgePhrase rx = some ph := by
  rw [judgePhrase, hd, h]
  cases ph <;> simp [CameraPhrase.symbols, framed]

theorem symbols_of_judgePhrase {rx : RxBuffer} {ph : CameraPhrase} (h : judgePhrase rx = some ph) :
    rx.stored = ph.symbols := by
  unfold judgePhrase at h
  split_ifs at h
  split at h
  case h_1 c k hstored =>
    split_ifs at h with hk hcode hcode hcode
    all_goals
      cases h
      rw [hstored, not_not.1 hk, hcode]
      rfl
  case h_2 c a f k hstored =>
    split_ifs at h with hk
    obtain ⟨rfl, rfl⟩ := hk
    cases h
    exact hstored
  case h_3 => cases h

/-- A phrase is heard exactly where its own symbols were stored without damage. -/
theorem judgePhrase_eq_some {rx : RxBuffer} (hd : rx.damaged = false) (ph : CameraPhrase) :
    judgePhrase rx = some ph ↔ rx.stored = ph.symbols :=
  ⟨symbols_of_judgePhrase, judgePhrase_of_symbols hd⟩

/-- Settles O13, from the rules of the check symbol and the judgement. -/
theorem checkSymbolsAreExclusiveOrs : Obligations.CheckSymbolsAreExclusiveOrs :=
  ⟨fun c => checkSymbol_cons c [], checkSymbol_cons, fun _ _ => rfl, rfl, fun _ _ => stepPayload_set,
    fun x _ => stepPayload_of_ne_set x,
    fun _ hd =>
      ⟨fun c f => judgePhrase_eq_some hd (.hello c f), judgePhrase_eq_some hd .settled,
        judgePhrase_eq_some hd .awake, judgePhrase_eq_some hd .parting⟩,
    fun _ => judgePhrase_of_damaged⟩

end Sys2Proof.Machine
end

section
/-! Symbols, attempts and receptions: the events of a lane that change nothing of their port but its lane, its step
claim and the acts on its wires (O15, O18). -/

set_option Elab.async false

namespace Sys2Proof.Machine

variable {p : PortNo} {s : State}

/-! ## The acts of an event (log entry 5) -/

/-- What an event at a port does on the wires is what its body does. -/
theorem portEvent_acts {body : State → State} {t : State} (h : portEvent p body s = .next t) :
    t.acts = (body s.quiet).acts := by
  rw [portEvent_eq] at h
  cases h
  simp

/-- A run takes no wire act back. -/
theorem PortRun.acts_append {gives : Bool} {t : State} (h : PortRun p gives s t) : ∃ l, t.acts = s.acts ++ l := by
  induction h with
  | refl => exact ⟨[], (List.append_nil _).symm⟩
  | modPort _ _ _ ih => exact ih
  | raise _ _ ih => exact ih
  | post _ ih => rwa [post_acts]
  | emit _ a ih =>
    obtain ⟨l, hl⟩ := ih
    exact ⟨l ++ a, by rw [emit_acts, hl, List.append_assoc]⟩
  | giveAll _ _ o ih => rwa [giveAll_acts]

/-! ## Events that give no outcome and set no cause -/

/-- An event whose body is a run that gives no outcome and leaves the registers as they are. -/
theorem laneEvent_ends {c : Instr} {body : State → State} (h : s.settled = true)
    (hexec : exec c s = portEvent p body s) (hr : PortRun p false s.quiet (body s.quiet))
    (hregs : (body s.quiet).regs = s.regs) :
    ∃ t, exec c s = .next t ∧ OnlyPort p s t ∧ RegsKept s t ∧ t.acts = (body s.quiet).acts ∧
      t.port p = (body s.quiet).port p := by
  obtain ⟨t, ht, he, honly⟩ := portEvent_ends_of_quietRun h hr
  exact ⟨t, hexec.trans ht, honly, he.regs.trans hregs, portEvent_acts ht, he.port⟩

/-! ## The part's symbols (R46, R47, R51) -/

theorem exec_retryGapExpiry {ph : Phrase} (hl : (s.port p).lane = .gap ph 0) :
    exec (.retryGapExpiry p) s =
      portEvent p (beginAttempt p { ph with attempt := ph.attempt + 1, next := 0 }) s := by
  simp [exec, execRetryGapExpiry, hl]

theorem exec_symbolAcknowledged {ph : Phrase} {n : Nat} (hl : (s.port p).lane = .sending ph n)
    (hmore : ph.next + 1 < ph.symbols.length) :
    exec (.symbolAcknowledged p) s = portEvent p (sendNext p ph) s := by
  simp [exec, execSymbolAcknowledged, hl, Phrase.atCheck, hmore.ne]

theorem beginAttempt_acts (ph : Phrase) :
    (beginAttempt p ph s).acts = s.acts ++ (.laneStart p :: symbolActs p ph.symbol) := rfl

theorem sendNext_acts (ph : Phrase) :
    (sendNext p ph s).acts = s.acts ++ symbolActs p (ph.symbols.getD (ph.next + 1) 0) := rfl

theorem sendNext_port (ph : Phrase) :
    (sendNext p ph s).port p = { s.port p with lane := .sending { ph with next := ph.next + 1 } 2 } := by
  simp [sendNext, Config.ackWaitMs]

/-- RETRY_GAP_EXPIRY (R51). -/
theorem retryGapExpiry_beginsAttempt {ph : Phrase} (h : s.settled = true) (hl : (s.port p).lane = .gap ph 0) :
    ∃ t, exec (.retryGapExpiry p) s = .next t ∧ OnlyPort p s t ∧ RegsKept s t ∧
      t.acts = .laneStart p :: symbolActs p (ph.symbols.getD 0 0) ∧
      t.port p = { s.port p with lane := .sending { ph with attempt := ph.attempt + 1, next := 0 } 2 } := by
  obtain ⟨t, ht, honly, hregs, hacts, hport⟩ :=
    laneEvent_ends h (exec_retryGapExpiry hl) (PortRun.refl.beginAttempt _) (beginAttempt_regs _ _ _)
  exact ⟨t, ht, honly, hregs, hacts.trans (beginAttempt_acts _), hport.trans (beginAttempt_port _ _ _)⟩

/-- SYMBOL_ACKNOWLEDGED of a symbol before the check symbol (R47). -/
theorem symbolAcknowledged_sendsNext {ph : Phrase} {n : Nat} (h : s.settled = true)
    (hl : (s.port p).lane = .sending ph n) (hmore : ph.next + 1 < ph.symbols.length) :
    ∃ t, exec (.symbolAcknowledged p) s = .next t ∧ OnlyPort p s t ∧ RegsKept s t ∧
      t.acts = symbolActs p (ph.symbols.getD (ph.next + 1) 0) ∧
      t.port p = { s.port p with lane := .sending { ph with next := ph.next + 1 } 2 } := by
  obtain ⟨t, ht, honly, hregs, hacts, hport⟩ :=
    laneEvent_ends h (exec_symbolAcknowledged hl hmore) (PortRun.refl.sendNext ph) rfl
  exact ⟨t, ht, honly, hregs, hacts.trans (sendNext_acts ph), hport.trans (sendNext_port ph)⟩

theorem laneBits_items (b : Byte) :
    (laneBits b).items =
      [b.getLsbD 7, b.getLsbD 6, b.getLsbD 5, b.getLsbD 4, b.getLsbD 3, b.getLsbD 2, b.getLsbD 1,
        b.getLsbD 0] := by
  simp [laneBits, List.range_succ, BitVec.getMsbD]

/-- The part's own parity bit passes the parity test (R46). -/
theorem parityGood_parityBit (b : Byte) : parityGood (laneBits b) (parityBit b) = true := by
  rw [parityGood_laneBits, parityBit]
  rcases Nat.mod_two_eq_zero_or_one (ones b) with h | h <;> simp [h, Nat.add_mod]

theorem count_parityBit (b : Byte) : ((laneBits b).items ++ [parityBit b]).count true % 2 = 1 :=
  beq_iff_eq.1 (parityGood_parityBit b)

/-! ## The lines of a lane -/

theorem clock_receiving_of_lt {rx : RxBuffer} (h : rx.count < 6) : (Lane.receiving rx).clock = .running := if_pos h

theorem clock_receiving_of_le {rx : RxBuffer} (h : 6 ≤ rx.count) : (Lane.receiving rx).clock = .stopped :=
  if_neg (Nat.not_lt.2 h)

theorem data_of_stopped {l : Lane} (h : l.clock = .stopped) : l.data = .released := by rw [Lane.data, h]

theorem data_of_running {l : Lane} (h : l.clock = .running) : l.data = .camera := by rw [Lane.data, h]

/-- Settles O15: what each event sends, the bits of a symbol, and the lines of each lane state. -/
theorem attemptsSendSymbolsWithParity : Obligations.AttemptsSendSymbolsWithParity := by
  refine ⟨fun p ph n s h => ⟨retryGapExpiry_beginsAttempt h, symbolAcknowledged_sendsNext h⟩,
    fun b => ⟨laneBits_items b, count_parityBit b⟩, fun ph n rx => ⟨?_, rfl, rfl, fun hc => ?_, fun hc => ?_⟩⟩
  · simp [Lane.clock, Lane.data]
  · have hclock := clock_receiving_of_lt hc
    exact ⟨hclock, data_of_running hclock⟩
  · have hclock := clock_receiving_of_le hc
    exact ⟨hclock, data_of_stopped hclock⟩

/-! ## Receptions begun and clocked in (R55) -/

theorem exec_cameraStartMark :
    exec (.cameraStartMark p) s =
      if (s.port p).lane = .free then portEvent p (beginReception p) s else noEvent s := rfl

theorem exec_cameraSymbolReceived {rx : RxBuffer} (hl : (s.port p).lane = .receiving rx) (hc : rx.count < 6)
    (data : LaneBits) (parity : Bool) :
    exec (.cameraSymbolReceived p data parity) s = portEvent p (clockIn p rx data parity) s := by
  simp [exec, execCameraSymbolReceived, hl, Config.receiveLimit, hc]

/-- CAMERA_START_MARK at a FREE lane (R55, R63). -/
theorem cameraStartMark_begins (h : s.settled = true) (hl : (s.port p).lane = .free) :
    ∃ t, exec (.cameraStartMark p) s = .next t ∧ OnlyPort p s t ∧ RegsKept s t ∧ t.acts = [] ∧
      t.port p = { s.port p with lane := .receiving { stored := [], count := 0, damaged := false } } := by
  obtain ⟨t, ht, honly, hregs, hacts, hport⟩ :=
    laneEvent_ends h (exec_cameraStartMark.trans (if_pos hl)) PortRun.refl.beginReception rfl
  exact ⟨t, ht, honly, hregs, hacts, hport.trans (port_modPort_self _ _ _)⟩

/-- The receive buffer after a symbol with good or bad parity (R55). -/
def RxBuffer.clocked (rx : RxBuffer) (b : Byte) (good : Bool) : RxBuffer :=
  if rx.damaged = false ∧ good then { rx with stored := rx.stored ++ [b], count := rx.count + 1 }
  else { rx with count := rx.count + 1, damaged := true }

/-- What the part answers to a symbol in its slot (R55). -/
def RxBuffer.answer (rx : RxBuffer) (p : PortNo) (good : Bool) : WireAct :=
  if rx.damaged = false ∧ good then .laneAck p else .laneWithhold p

theorem clockIn_eq (rx : RxBuffer) (data : LaneBits) (parity : Bool) :
    clockIn p rx data parity s =
      (s.modPort p fun x => { x with lane := .receiving (rx.clocked (laneData data) (parityGood data parity)) }).emit
        [rx.answer p (parityGood data parity)] := by
  unfold clockIn RxBuffer.clocked RxBuffer.answer
  split <;> rfl

/-- CAMERA_SYMBOL_RECEIVED (R55). -/
theorem cameraSymbolReceived_clocksIn {rx : RxBuffer} (h : s.settled = true)
    (hl : (s.port p).lane = .receiving rx) (hc : rx.count < 6) (data : LaneBits) (parity : Bool) :
    ∃ t, exec (.cameraSymbolReceived p data parity) s = .next t ∧ OnlyPort p s t ∧ RegsKept s t ∧
      t.acts = [rx.answer p (parityGood data parity)] ∧
      t.port p =
        { s.port p with lane := .receiving (rx.clocked (laneData data) (parityGood data parity)) } := by
  obtain ⟨t, ht, honly, hregs, hacts, hport⟩ := laneEvent_ends h (exec_cameraSymbolReceived hl hc data parity)
    (PortRun.refl.clockIn rx data parity) (by rw [clockIn_eq]; rfl)
  rw [clockIn_eq] at hacts hport
  rw [port_emit, port_modPort_self, port_quiet] at hport
  exact ⟨t, ht, honly, hregs, hacts, hport⟩

/-! ## Receptions discarded (R55, R56) -/

theorem exec_receiveLimit {rx : RxBuffer} (hl : (s.port p).lane = .receiving rx) (hc : 6 ≤ rx.count) :
    exec (.receiveLimit p) s = portEvent p (discardReception p) s := by
  simp [exec, execReceiveLimit, hl, Config.receiveLimit, Nat.not_lt.2 hc]

theorem exec_cameraPhraseDiscarded {rx : RxBuffer} (hl : (s.port p).lane = .receiving rx) (hc : rx.count < 6)
    (hj : judgePhrase rx = none) :
    exec (.cameraPhraseDiscarded p) s = portEvent p (discardReception p) s := by
  simp [exec, execCameraPhraseDiscarded, Port.heard, hl, Config.receiveLimit, hc, hj]

/-- A grant point at a lane that has just become FREE (R61). -/
theorem laneFreed_granted (x : Port) :
    x.laneFreed.granted = { x with lane := x.laneAtGrant, stepClaim := x.keepDue && x.stepClaim } := by
  have hchoose : ∀ k c, ({ x with lane := .free, keepDue := k, stepClaim := c } : Port).chooseStep = x.chooseStep :=
    fun _ _ => rfl
  cases hk : x.keepDue with
  | true =>
    rw [granted_of_keepDue (x := x.laneFreed) hk]
    simp [Port.laneFreed, Port.laneAtGrant, hk]
  | false =>
    cases hc : x.stepClaim with
    | false => simp [Port.laneFreed, Port.granted, Port.laneAtGrant, hk, hc]
    | true =>
      cases hph : x.chooseStep <;>
        simp [Port.laneFreed, Port.granted, Port.laneAtGrant, Config.ackWaitMs, hchoose, hk, hc, hph]

/-- An event that discards the reception in progress. -/
theorem reception_discarded {c : Instr} (h : s.settled = true)
    (hexec : exec c s = portEvent p (discardReception p) s) :
    ∃ t, exec c s = .next t ∧ OnlyPort p s t ∧ RegsKept s t ∧
      t.port p =
        { s.port p with
          lane := (s.port p).laneAtGrant, stepClaim := (s.port p).keepDue && (s.port p).stepClaim } := by
  obtain ⟨t, ht, honly, hregs, -, hport⟩ :=
    laneEvent_ends h hexec PortRun.refl.discardReception (grantPoint_regs _ _)
  refine ⟨t, ht, honly, hregs, ?_⟩
  rw [hport, discardReception, grantPoint_port, freeLane_port, port_quiet, laneFreed_granted]

/-- Settles O18, each event by its own lemma. -/
theorem receptionsAreClockedInAndDiscarded : Obligations.ReceptionsAreClockedInAndDiscarded := by
  refine ⟨fun p s h => ⟨cameraStartMark_begins h, fun hl => exec_cameraStartMark.trans (if_neg hl)⟩,
    fun p rx data b parity s h hl hc hdata => ?_,
    fun p rx s h hl => ⟨fun hc => reception_discarded h (exec_receiveLimit hl hc),
      fun hc hj => reception_discarded h (exec_cameraPhraseDiscarded hl hc hj)⟩⟩
  obtain ⟨t, ht, honly, hregs, hacts, hport⟩ := cameraSymbolReceived_clocksIn h hl hc data parity
  rw [eq_laneBits hdata, laneData_laneBits, parityGood_laneBits] at hport
  rw [eq_laneBits hdata, parityGood_laneBits] at hacts
  refine ⟨t, ht, honly, hregs, ?_⟩
  simp only [RxBuffer.answer, RxBuffer.clocked, beq_iff_eq] at hacts hport
  split_ifs at hacts hport ⊢ <;> exact ⟨hacts, hport⟩

end Sys2Proof.Machine
end

section
/-! The ends of the part's own phrases: attempts that fail, and KEEP, HOLD, RELEASE and HALT that end OK (O14, O16). -/

set_option Elab.async false

namespace Sys2Proof.Machine

variable {p : PortNo} {s : State}

/-! ## A phrase of the part ends (R52) -/

/-- The state in which the ending of a phrase is applied: the end mark is sent, and the port is changed by `f`, which
frees its lane. -/
def State.phraseOver (s : State) (p : PortNo) (f : Port → Port) : State :=
  (s.quiet.emit [.laneEnd p]).modPort p f

section Over

variable (f : Port → Port)

@[simp] theorem phraseOver_port : (s.phraseOver p f).port p = f (s.port p) := port_modPort_self _ _ _

@[simp] theorem phraseOver_regs : (s.phraseOver p f).regs = s.regs := rfl

@[simp] theorem phraseOver_cadence : (s.phraseOver p f).cadence = s.cadence := rfl

@[simp] theorem phraseOver_entry (e : EntryNo) : (s.phraseOver p f).entry e = s.entry e := rfl

end Over

theorem phraseOver_run {gives : Bool} {f : Port → Port} (hf : ∀ x, (f x).waiters = x.waiters) :
    PortRun p gives s.quiet (s.phraseOver p f) := (PortRun.refl.emit _).modPort f hf

theorem phraseEndsOk_eq (ph : Phrase) :
    phraseEndsOk p ph s.quiet =
      grantPoint p
        (if ph.name = .keep then keepEnded p (s.phraseOver p Port.endOfReception)
        else applyStep p ph.name true (s.phraseOver p Port.endOfReception)) := by
  have hover : noteExchange p ((s.quiet.emit [.laneEnd p]).modPort p fun x => { x with lane := .free }) =
      s.phraseOver p Port.endOfReception := modPort_modPort _ _
  rw [phraseEndsOk, endPhrase, if_pos rfl, hover]

/-- The third attempt of a phrase fails (R51). -/
theorem attemptFails_last {ph : Phrase} (h : 3 ≤ ph.attempt) :
    attemptFails p ph s.quiet =
      grantPoint p
        (if ph.name = .keep then keepEnded p (s.phraseOver p Port.laneFreed)
        else applyStep p ph.name false (s.phraseOver p Port.laneFreed)) := by
  unfold attemptFails
  rw [if_neg (show ¬ ph.attempt < Config.maxAttempts from Nat.not_lt.2 h)]
  rfl

/-- An earlier attempt of a phrase fails (R51). -/
theorem attemptFails_retry {ph : Phrase} (h : ph.attempt < 3) :
    attemptFails p ph s.quiet = s.phraseOver p fun x => { x with lane := .gap ph 5 } := by
  unfold attemptFails
  exact if_pos h

theorem keepEnded_of_stale (hst : (s.port p).state = .ready) (hstale : (s.port p).stale = true) :
    keepEnded p s = enterTuning p s := if_pos ⟨hst, hstale⟩

theorem keepEnded_of_not_stale (h : ¬ ((s.port p).state = .ready ∧ (s.port p).stale = true)) : keepEnded p s = s :=
  if_neg h

/-! ## Endings that give no outcome -/

section Quiet

variable {t v : State} {f : Port → Port}

/-- An ending that gives no outcome, up to its grant point. -/
theorem ending_quiet (he : PortEventEnds p s (grantPoint p v) t) (hframe : PortAndOutcomes p s t)
    (hf : ∀ x, (f x).waiters = x.waiters) (hr : PortRun p false (s.phraseOver p f) v) :
    OnlyPort p s t ∧ t.regs = v.regs ∧ t.port p = (v.port p).granted := by
  have hrun := ((phraseOver_run hf).trans hr).grantPoint
  exact ⟨hframe.onlyPort (he.board ⟨hrun.walker, hrun.inflight⟩), he.regs.trans (grantPoint_regs _ _),
    he.port.trans (grantPoint_port _ _)⟩

/-- An ending that changes no state of the port (R52). -/
theorem ending_passes (he : PortEventEnds p s (grantPoint p (s.phraseOver p f)) t) (hframe : PortAndOutcomes p s t)
    (hf : ∀ x, (f x).waiters = x.waiters) :
    OnlyPort p s t ∧ RegsKept s t ∧ t.port p = (f (s.port p)).granted := by
  obtain ⟨honly, hregs, hport⟩ := ending_quiet he hframe hf .refl
  exact ⟨honly, hregs, by rw [hport, phraseOver_port]⟩

end Quiet

/-! ## A KEEP that ends at a READY port with a stale profile (R86) -/

section Stale

variable {t : State} {f : Port → Port}

/-- `y` is the READY port `x` as the end of a KEEP leaves it for TUNING: profile, target and waiters stay. -/
structure Port.Retuning (x y : Port) : Prop where
  aside : x.Aside y
  ready : x.state = .ready
  profile : y.profile = x.profile

/-- TUNING entered at the end of a KEEP, and left for READY where there is no profile. -/
theorem ending_retunes (he : PortEventEnds p s (grantPoint p (enterTuning p (s.phraseOver p f))) t)
    (hx : (s.port p).Retuning (f (s.port p))) :
    CausesSet 0x02 s t ∧ t.port p = ((f (s.port p)).tuningEntered s.cadence.beat).granted ∧
      ∀ e, t.entry e =
        if (s.port p).profile = [] ∧ (s.port p).target = .awake then s.entryAfter p .reached e else s.entry e := by
  obtain ⟨htarget, -, hwaiters⟩ := hx.aside.intent
  refine ⟨?_, ?_, fun e => ?_⟩
  · rw [causesSet_iff, he.regs, grantPoint_regs, enterTuning_regs, phraseOver_port, hx.aside.state, hx.ready]
    rfl
  · rw [he.port, grantPoint_port, enterTuning_port, phraseOver_port, phraseOver_cadence]
  · have hafter : (s.phraseOver p f).entryAfter p .reached e = s.entryAfter p .reached e :=
      entryAfter_congr _ _ (by rw [phraseOver_port, hwaiters]) rfl
    rw [he.entry, grantPoint_entry, enterTuning_entry, phraseOver_port, hx.profile, htarget, hafter,
      phraseOver_entry]

/-- With a profile to send no outcome is given. -/
theorem ending_retunes_onlyPort (he : PortEventEnds p s (grantPoint p (enterTuning p (s.phraseOver p f))) t)
    (hframe : PortAndOutcomes p s t) (hf : ∀ x, (f x).waiters = x.waiters)
    (hx : (s.port p).Retuning (f (s.port p))) (hp : (s.port p).profile ≠ []) : OnlyPort p s t :=
  (ending_quiet he hframe hf
    (PortRun.refl.enterTuning_of_profile (by rwa [phraseOver_port, hx.profile]))).1

end Stale

/-! ## Step phrases that move the port (Table 1-3a) -/

section Moves

variable {x : Port} (beat : Word)

@[simp] theorem enterPausing_regs (s : State) :
    (enterPausing p s).regs = if (s.port p).state = .pausing then s.regs else s.regs.caused 2 := by
  simp [enterPausing]

@[simp] theorem enterResuming_regs (s : State) :
    (enterResuming p s).regs = if (s.port p).state = .resuming then s.regs else s.regs.caused 2 := by
  simp [enterResuming]

@[simp] theorem enterStopping_regs (s : State) :
    (enterStopping p s).regs = if (s.port p).state = .stopping then s.regs else s.regs.caused 2 := by
  simp [enterStopping]

/-- The port in the state that a step phrase has taken it to, past its grant point: no keepalive is due and no step
is claimed. -/
def Port.steppedTo (st : PState) (beat : Word) (timer : Deadline) (lane : Lane) (x : Port) : Port :=
  { x with
    state := st, stateBeat := beat, timer := timer, silence := 0, keepDue := false, stepClaim := false
    cursor := 0, restart := false, lane := lane }

theorem steppedTo_laneFreed (st : PState) (timer : Deadline) (lane : Lane) :
    x.laneFreed.steppedTo st beat timer lane = x.steppedTo st beat timer lane := rfl

theorem steppedTo_endOfReception (h : x.state.isAlive = true) (st : PState) (timer : Deadline) (lane : Lane) :
    x.endOfReception.steppedTo st beat timer lane = x.steppedTo st beat timer lane := by
  rw [endOfReception_of_alive h]; rfl

/-- The lane is FREE and no KEEP is owed after a whole exchange of an alive port (R59). -/
theorem endOfReception_fields (h : x.state.isAlive = true) :
    x.endOfReception.lane = .free ∧ x.endOfReception.keepDue = false ∧ x.endOfReception.silence = 0 := by
  rw [endOfReception_of_alive h]; exact ⟨rfl, rfl, rfl⟩

/-- What a PAUSING port sends for its target (R15). -/
def Target.laneAfterHold : Target → Lane
  | .paused => .free
  | .awake => .sending (newPhrase .release []) 2
  | .off => .sending (newPhrase .halt []) 2

/-- What a RESUMING port sends for its target (R15). -/
def Target.laneAfterRelease : Target → Lane
  | .awake => .free
  | .paused => .sending (newPhrase .hold []) 2
  | .off => .sending (newPhrase .halt []) 2

/-- PAUSING entered at a free lane (R4, R25). -/
theorem pausingEntered_granted (hl : x.lane = .free) (hk : x.keepDue = false) (hs : x.silence = 0)
    (hst : x.state ≠ .pausing) :
    (x.pausingEntered beat).granted =
      x.steppedTo .pausing beat (if x.target = .paused then some 1000 else none)
        x.target.laneAfterHold := by
  cases htar : x.target <;> cases hc : x.stepClaim <;>
    simp [Port.pausingEntered, Port.entered, Port.claimRaised, Port.granted, Port.chooseStep, Port.stepPayload,
      stepCall, Port.steppedTo, Target.laneAfterHold, Config.holdLimitMs, Config.ackWaitMs, PState.isAlive, hl, hk, hs,
      hst, htar, hc]

/-- RESUMING entered at a free lane (R4, R27). -/
theorem resumingEntered_granted (hl : x.lane = .free) (hk : x.keepDue = false) (hs : x.silence = 0)
    (hst : x.state ≠ .resuming) :
    (x.resumingEntered beat).granted =
      x.steppedTo .resuming beat (if x.target = .awake then some x.resumeMs else none)
        x.target.laneAfterRelease := by
  cases htar : x.target <;> cases hc : x.stepClaim <;>
    simp [Port.resumingEntered, Port.entered, Port.claimRaised, Port.granted, Port.chooseStep, Port.stepPayload,
      stepCall, Port.steppedTo, Target.laneAfterRelease, Config.ackWaitMs, PState.isAlive, hl, hk, hs, hst, htar, hc]

/-- STOPPING entered at a free lane (R28). -/
theorem stoppingEntered_granted (hl : x.lane = .free) (hst : x.state ≠ .stopping) :
    (x.stoppingEntered beat).granted = x.steppedTo .stopping beat (some 3000) .free := by
  simp [Port.stoppingEntered, Port.entered, Port.granted, Port.steppedTo, Config.stopLimitMs, PState.isAlive, hl, hst]

end Moves

theorem ne_stopping_of_alive {st : PState} (h : st.isAlive = true) : st ≠ .stopping := by
  rintro rfl; cases h

theorem code_ne_stopping_of_alive {st : PState} (h : st.isAlive = true) : PState.stopping.code ≠ st.code := by
  cases st <;> simp_all [PState.isAlive, PState.code]

/-! ## PART_PHRASE_END_OK (R50, R52) -/

theorem exec_partPhraseEndOk {ph : Phrase} {n : Nat} (hl : (s.port p).lane = .sending ph n)
    (hcheck : ph.next + 1 = ph.symbols.length) :
    exec (.partPhraseEndOk p) s = portEvent p (phraseEndsOk p ph) s := by
  simp [exec, execPartPhraseEndOk, hl, Phrase.atCheck, hcheck]

/-- A run that begins behind the end mark has the end mark as its first act. -/
theorem acts_head_of_run {gives : Bool} {u : State} (h : PortRun p gives (s.quiet.emit [.laneEnd p]) u) :
    u.acts.head? = some (.laneEnd p) := by
  obtain ⟨rest, hrest⟩ := h.acts_append
  rw [hrest]
  rfl

/-- How PART_PHRASE_END_OK ends. -/
theorem partPhraseEndOk_ends {ph : Phrase} {n : Nat} (h : s.settled = true)
    (hl : (s.port p).lane = .sending ph n) (hcheck : ph.next + 1 = ph.symbols.length) :
    ∃ t, exec (.partPhraseEndOk p) s = .next t ∧ PortEventEnds p s (phraseEndsOk p ph s.quiet) t ∧
      PortAndOutcomes p s t ∧ t.acts.head? = some (.laneEnd p) := by
  obtain ⟨t, ht, he, hframe⟩ := portEvent_ends_of_run h ((PortRun.refl (p := p)).phraseEndsOk ph)
  refine ⟨t, (exec_partPhraseEndOk hl hcheck).trans ht, he, hframe, ?_⟩
  rw [portEvent_acts ht]
  exact acts_head_of_run (PortRun.refl.endPhrase ph true)

theorem endOfReception_retuning {x : Port} (h : x.state = .ready) : x.Retuning x.endOfReception :=
  ⟨endOfReception_aside x, h, by rw [endOfReception_of_alive (by rw [h]; rfl)]⟩

theorem nowTuning_endOfReception {x : Port} (beat : Word) (h : x.state.isAlive = true) (e : ProfileEntry) :
    x.endOfReception.nowTuning beat e = x.nowTuning beat e := by
  rw [endOfReception_of_alive h]; rfl

theorem nowReady_endOfReception {x : Port} (beat : Word) (h : x.state.isAlive = true) :
    x.endOfReception.nowReady beat = x.nowReady beat := by
  rw [endOfReception_of_alive h]; rfl

theorem endOfReception_waiters (x : Port) : x.endOfReception.waiters = x.waiters := (endOfReception_aside x).intent.2.2

/-- A KEEP that ends OK (R52, R59, R61, R86). -/
theorem keep_endsOk {ph : Phrase} {n : Nat} (h : s.settled = true) (hl : (s.port p).lane = .sending ph n)
    (hcheck : ph.next + 1 = ph.symbols.length) (hname : ph.name = .keep) (ha : (s.port p).state.isAlive = true) :
    let x := s.port p
    ∃ t, exec (.partPhraseEndOk p) s = .next t ∧ PortAndOutcomes p s t ∧
      t.acts.head? = some (.laneEnd p) ∧
      (¬(x.state = .ready ∧ x.stale = true) →
        OnlyPort p s t ∧ RegsKept s t ∧
          t.port p =
            { x with
              silence := 0, keepDue := false, stepClaim := false
              lane := { x with keepDue := false }.laneAtGrant }) ∧
      (∀ e es, x.state = .ready → x.stale = true → x.profile = e :: es →
        OnlyPort p s t ∧ CausesSet 0x02 s t ∧ t.port p = x.nowTuning s.cadence.beat e) ∧
      (x.state = .ready → x.stale = true → x.profile = [] → ReadyEntered p x s t) := by
  intro x
  have hstale : x.endOfReception.stale = x.stale := by rw [endOfReception_of_alive ha]
  obtain ⟨hlane, hk, hsilence⟩ := endOfReception_fields ha
  obtain ⟨t, ht, he, hframe, hacts⟩ := partPhraseEndOk_ends h hl hcheck
  rw [phraseEndsOk_eq, if_pos hname] at he
  refine ⟨t, ht, hframe, hacts, fun hno => ?_, fun e es hst hs hp => ?_, fun hst hs hp => ?_⟩
  · rw [keepEnded_of_not_stale (by rwa [phraseOver_port, endOfReception_state, hstale])] at he
    obtain ⟨honly, hregs, hport⟩ := ending_passes he hframe endOfReception_waiters
    exact ⟨honly, hregs, hport.trans (endOfReception_granted_of_alive ha)⟩
  · rw [keepEnded_of_stale (by rwa [phraseOver_port, endOfReception_state])
      (by rwa [phraseOver_port, hstale])] at he
    have hx := endOfReception_retuning hst
    obtain ⟨hregs, hport, -⟩ := ending_retunes he hx
    have honly := ending_retunes_onlyPort he hframe endOfReception_waiters hx (by rw [hp]; exact List.cons_ne_nil e es)
    refine ⟨honly, hregs, hport.trans ?_⟩
    have hnot : (s.port p).endOfReception.state ≠ .tuning := by
      rw [endOfReception_state, show (s.port p).state = .ready from hst]; exact PState.noConfusion
    rw [tuningEntered_granted _ hlane hk hsilence (fun htun => absurd htun hnot)
      (hx.profile.trans hp), nowTuning_endOfReception _ ha]
  · rw [keepEnded_of_stale (by rwa [phraseOver_port, endOfReception_state])
      (by rwa [phraseOver_port, hstale])] at he
    have hx := endOfReception_retuning hst
    obtain ⟨hregs, hport, hentry⟩ := ending_retunes he hx
    refine readyEntered_of hregs (hport.trans ?_) fun e => (hentry e).trans (if_congr (and_iff_right hp) rfl rfl)
    rw [tuningEntered_granted_nil _ hlane hk hsilence (hx.profile.trans hp),
      nowReady_endOfReception _ ha]

/-- A step phrase has ended OK and taken the port to a state, with this timer and this lane (Table 1-3a). -/
def StepMoved (p : PortNo) (st : PState) (timer : Deadline) (lane : Lane) (s t : State) : Prop :=
  OnlyPort p s t ∧ CausesSet 0x02 s t ∧ PostedWhileAttached (.port p) s t ∧
    t.acts.head? = some (.laneEnd p) ∧ t.port p = (s.port p).steppedTo st s.cadence.beat timer lane

/-- A step phrase that ends OK, gives no outcome and takes an alive port to another state. -/
theorem step_endsOk {ph : Phrase} {n : Nat} {op : State → State} {st : PState} {timer : Deadline} {lane : Lane}
    (h : s.settled = true) (hl : (s.port p).lane = .sending ph n) (hcheck : ph.next + 1 = ph.symbols.length)
    (hop : phraseEndsOk p ph s.quiet = grantPoint p (op (s.phraseOver p Port.endOfReception)))
    (hr : ∀ v, PortRun p false v (op v)) (hcode : st.code ≠ (s.port p).state.code)
    (hregs : (op (s.phraseOver p Port.endOfReception)).regs = s.regs.caused 2)
    (hport : ((op (s.phraseOver p Port.endOfReception)).port p).granted =
      (s.port p).steppedTo st s.cadence.beat timer lane) :
    ∃ t, exec (.partPhraseEndOk p) s = .next t ∧ StepMoved p st timer lane s t := by
  obtain ⟨t, ht, he, hframe, hacts⟩ := partPhraseEndOk_ends h hl hcheck
  have hposted := he.posted
  rw [hop] at he
  obtain ⟨honly, hr', hp⟩ := ending_quiet he hframe endOfReception_waiters (hr _)
  have hmoved := hp.trans hport
  have hpublished : portPublished (t.port p) ≠ portPublished (s.port p) :=
    published_ne_of_state (by rw [hmoved]; rfl) rfl hcode
  exact ⟨t, ht, honly, hr'.trans hregs, hposted hpublished, hacts, hmoved⟩

theorem phraseEndsOk_step {ph : Phrase} {name : PhraseName} (hname : ph.name = name) (hne : name ≠ .keep) :
    phraseEndsOk p ph s.quiet = grantPoint p (applyStep p name true (s.phraseOver p Port.endOfReception)) := by
  rw [phraseEndsOk_eq, hname, if_neg hne]

theorem endOfReception_state_ne {x : Port} {st : PState} (h : st.code ≠ x.state.code) :
    x.endOfReception.state ≠ st := by
  rw [endOfReception_state]
  exact fun hst => h (by rw [hst])

theorem endOfReception_target (x : Port) : x.endOfReception.target = x.target := (endOfReception_aside x).intent.1

theorem endOfReception_resumeMs {x : Port} {c : ClassRecord} (h : x.classRecord = some c) :
    x.endOfReception.resumeMs = c.resumeLimit.toNat * 10 := by
  rw [Port.resumeMs, endOfReception_classRecord, h]; rfl

section Steps

variable {ph : Phrase} {n : Nat}

/-- A HOLD that ends OK (R4, R25). -/
theorem hold_endsOk (h : s.settled = true) (hl : (s.port p).lane = .sending ph n)
    (hcheck : ph.next + 1 = ph.symbols.length) (hname : ph.name = .hold)
    (hst : (s.port p).state = .ready ∨ (s.port p).state = .resuming) :
    ∃ t, exec (.partPhraseEndOk p) s = .next t ∧
      StepMoved p .pausing (if (s.port p).target = .paused then some 1000 else none)
        (s.port p).target.laneAfterHold s t := by
  have ha : (s.port p).state.isAlive = true := by rcases hst with hst | hst <;> rw [hst] <;> rfl
  have hcode : PState.pausing.code ≠ (s.port p).state.code := by rcases hst with hst | hst <;> rw [hst] <;> decide
  have hne := endOfReception_state_ne hcode
  obtain ⟨hlane, hk, hsilence⟩ := endOfReception_fields ha
  refine step_endsOk h hl hcheck (phraseEndsOk_step hname PhraseName.noConfusion)
    (fun _ => PortRun.refl.enterPausing) hcode ?_ ?_
  · exact (enterPausing_regs _).trans (if_neg (by rwa [phraseOver_port]))
  · rw [applyStep, enterPausing_port, phraseOver_port, phraseOver_cadence,
      pausingEntered_granted _ hlane hk hsilence hne, steppedTo_endOfReception _ ha, endOfReception_target]

/-- A RELEASE that ends OK (R4, R27). -/
theorem release_endsOk {c : ClassRecord} (h : s.settled = true) (hl : (s.port p).lane = .sending ph n)
    (hcheck : ph.next + 1 = ph.symbols.length) (hname : ph.name = .release)
    (hc : (s.port p).classRecord = some c) (hst : (s.port p).state = .pausing ∨ (s.port p).state = .paused) :
    ∃ t, exec (.partPhraseEndOk p) s = .next t ∧
      StepMoved p .resuming (if (s.port p).target = .awake then some (c.resumeLimit.toNat * 10) else none)
        (s.port p).target.laneAfterRelease s t := by
  have ha : (s.port p).state.isAlive = true := by rcases hst with hst | hst <;> rw [hst] <;> rfl
  have hcode : PState.resuming.code ≠ (s.port p).state.code := by rcases hst with hst | hst <;> rw [hst] <;> decide
  have hne := endOfReception_state_ne hcode
  obtain ⟨hlane, hk, hsilence⟩ := endOfReception_fields ha
  refine step_endsOk h hl hcheck (phraseEndsOk_step hname PhraseName.noConfusion)
    (fun _ => PortRun.refl.enterResuming) hcode ?_ ?_
  · exact (enterResuming_regs _).trans (if_neg (by rwa [phraseOver_port]))
  · rw [applyStep, enterResuming_port, phraseOver_port, phraseOver_cadence,
      resumingEntered_granted _ hlane hk hsilence hne, steppedTo_endOfReception _ ha, endOfReception_target,
      endOfReception_resumeMs hc]

/-- A HALT that ends OK (R28). -/
theorem halt_endsOk (h : s.settled = true) (hl : (s.port p).lane = .sending ph n)
    (hcheck : ph.next + 1 = ph.symbols.length) (hname : ph.name = .halt) (ha : (s.port p).state.isAlive = true) :
    ∃ t, exec (.partPhraseEndOk p) s = .next t ∧ StepMoved p .stopping (some 3000) .free s t := by
  have hcode := code_ne_stopping_of_alive ha
  have hne := endOfReception_state_ne hcode
  obtain ⟨hlane, -, -⟩ := endOfReception_fields ha
  refine step_endsOk h hl hcheck (phraseEndsOk_step hname PhraseName.noConfusion)
    (fun _ => PortRun.refl.enterStopping) hcode ?_ ?_
  · exact (enterStopping_regs _).trans (if_neg (by rwa [phraseOver_port]))
  · rw [applyStep, enterStopping_port, phraseOver_port, phraseOver_cadence, stoppingEntered_granted _ hlane hne,
      steppedTo_endOfReception _ ha]

end Steps

/-- Settles O16, each phrase by its own lemma. -/
theorem keepHoldReleaseAndHaltEndOk : Obligations.KeepHoldReleaseAndHaltEndOk :=
  ⟨fun _ _ _ _ h hl hcheck hname ha => keep_endsOk h hl hcheck hname ha,
    fun _ _ _ _ _ h hl hcheck hc =>
      ⟨hold_endsOk h hl hcheck, fun hname => release_endsOk h hl hcheck hname hc, halt_endsOk h hl hcheck⟩⟩

/-! ## ACK_WAIT_EXPIRY (R51, R52) -/

theorem exec_ackWaitExpiry {ph : Phrase} (hl : (s.port p).lane = .sending ph 0) :
    exec (.ackWaitExpiry p) s = portEvent p (attemptFails p ph) s := by
  simp [exec, execAckWaitExpiry, hl]

theorem attemptFails_acts (ph : Phrase) : (attemptFails p ph s.quiet).acts.head? = some (.laneEnd p) := by
  by_cases hlast : ph.attempt < 3
  · rw [attemptFails_retry hlast]; rfl
  · rw [attemptFails, if_neg (show ¬ ph.attempt < Config.maxAttempts from hlast)]
    exact acts_head_of_run (PortRun.refl.endPhrase ph false)

theorem laneFreed_waiters (x : Port) : x.laneFreed.waiters = x.waiters := rfl

theorem laneFreed_retuning {x : Port} (h : x.state = .ready) : x.Retuning x.laneFreed :=
  ⟨⟨rfl, ⟨rfl, rfl, rfl⟩, rfl⟩, h, rfl⟩

/-- What the entries show of READY entered with a target. -/
theorem outcomes_of_entries {t : State} {target : Target}
    (h : ∀ e, t.entry e = if target = .awake then s.entryAfter p .reached e else s.entry e) :
    if target = .awake then WaitersReceive p .reached s t else t.inflight = s.inflight := by
  split <;> rename_i htar
  · exact fun e => by rw [h, if_pos htar]; rfl
  · exact inflight_of_entries fun e => by rw [h, if_neg htar]

section Failed

variable {ph : Phrase} {t : State}

/-- An attempt fails with attempts left (R51). -/
theorem attempt_retries (hlast : ph.attempt < 3) (he : PortEventEnds p s (attemptFails p ph s.quiet) t)
    (hframe : PortAndOutcomes p s t) :
    OnlyPort p s t ∧ RegsKept s t ∧ t.port p = { s.port p with lane := .gap ph 5 } := by
  rw [attemptFails_retry hlast] at he
  have hrun : PortRun p false s.quiet (s.phraseOver p fun x => { x with lane := .gap ph 5 }) :=
    phraseOver_run fun _ => rfl
  exact ⟨hframe.onlyPort (he.board ⟨hrun.walker, hrun.inflight⟩), he.regs, by rw [he.port, phraseOver_port]⟩

theorem attemptFails_step {name : PhraseName} (hlast : 3 ≤ ph.attempt) (hname : ph.name = name)
    (hne : name ≠ .keep) :
    attemptFails p ph s.quiet = grantPoint p (applyStep p name false (s.phraseOver p Port.laneFreed)) := by
  rw [attemptFails_last hlast, hname, if_neg hne]

theorem attemptFails_keep (hlast : 3 ≤ ph.attempt) (hname : ph.name = .keep) :
    attemptFails p ph s.quiet = grantPoint p (keepEnded p (s.phraseOver p Port.laneFreed)) := by
  rw [attemptFails_last hlast, if_pos hname]

/-- A SET, HOLD or RELEASE that ends FAILED (R52, Table 1-3a). -/
theorem step_faults (hlast : 3 ≤ ph.attempt) (hname : ph.name = .set ∨ ph.name = .hold ∨ ph.name = .release)
    (ha : (s.port p).state.isAlive = true) (he : PortEventEnds p s (attemptFails p ph s.quiet) t) :
    FaultEntered p .link s t ∧ (t.port p).toGovernor = (s.port p).toGovernor ∧
      (s.port p).cableKept (t.port p) ∧ (s.port p).mailKept (t.port p) := by
  have hon : ((s.phraseOver p Port.laneFreed).port p).railOn = true := by
    rw [phraseOver_port]; exact railOn_of_alive ha
  have hbody : attemptFails p ph s.quiet = fault p .link (s.phraseOver p Port.laneFreed) := by
    have hclosed := grantPoint_of_not_free (fault_lane_closed .link hon)
    rcases hname with hname | hname | hname <;>
      exact (attemptFails_step hlast hname PhraseName.noConfusion).trans hclosed
  have hport : t.port p = (s.port p).laneFreed.faultEntered .link s.cadence.beat := by
    rw [he.port, hbody, fault_port, phraseOver_port, phraseOver_cadence]
  rw [phraseOver_port] at hon
  rw [Port.faultEntered_of_on _ _ hon, not_warming_of_alive (x := (s.port p).laneFreed) ha] at hport
  refine ⟨faultEntered_of_fault he hbody (by rwa [phraseOver_port]) (by rw [phraseOver_port]; rfl)
    (by rw [phraseOver_port]; rfl) (fun _ => rfl) rfl rfl, ?_, ?_, ?_⟩ <;> rw [hport]
  · exact List.append_nil _
  · exact ⟨rfl, rfl, rfl, rfl, rfl, rfl⟩
  · exact ⟨rfl, rfl, rfl, rfl, rfl, rfl, rfl⟩

/-- A HALT that ends FAILED (R28, R52). -/
theorem halt_stops (hlast : 3 ≤ ph.attempt) (hname : ph.name = .halt) (ha : (s.port p).state.isAlive = true)
    (he : PortEventEnds p s (attemptFails p ph s.quiet) t) (hframe : PortAndOutcomes p s t) :
    OnlyPort p s t ∧ CausesSet 0x02 s t ∧
      t.port p = (s.port p).steppedTo .stopping s.cadence.beat (some 3000) .free := by
  have hne : (s.port p).laneFreed.state ≠ .stopping := ne_stopping_of_alive ha
  rw [attemptFails_step hlast hname PhraseName.noConfusion] at he
  obtain ⟨honly, hregs, hport⟩ := ending_quiet he hframe laneFreed_waiters PortRun.refl.enterStopping
  refine ⟨honly, ?_, ?_⟩
  · exact hregs.trans ((enterStopping_regs _).trans (if_neg (by rwa [phraseOver_port])))
  · rw [hport, applyStep, enterStopping_port, phraseOver_port, phraseOver_cadence, stoppingEntered_granted _ rfl hne,
      steppedTo_laneFreed]

/-! ### A KEEP that ends FAILED (R64) -/

/-- The port that begins its KEEP anew, with this silence and this step claim. -/
def Port.keepAgain (silence : Nat) (claim : Bool) (x : Port) : Port :=
  { x with silence := silence, keepDue := true, stepClaim := claim, lane := .sending (newPhrase .keep []) 2 }

/-- A KEEP still due begins anew (R64). -/
theorem keep_beginsAgain (hlast : 3 ≤ ph.attempt) (hname : ph.name = .keep) (hk : (s.port p).keepDue = true)
    (hno : ¬((s.port p).state = .ready ∧ (s.port p).stale = true))
    (he : PortEventEnds p s (attemptFails p ph s.quiet) t) (hframe : PortAndOutcomes p s t) :
    OnlyPort p s t ∧ RegsKept s t ∧ t.port p = { s.port p with lane := .sending (newPhrase .keep []) 2 } := by
  rw [attemptFails_keep hlast hname, keepEnded_of_not_stale (by rwa [phraseOver_port])] at he
  obtain ⟨honly, hregs, hport⟩ := ending_passes he hframe laneFreed_waiters
  refine ⟨honly, hregs, ?_⟩
  rw [hport, granted_of_keepDue (x := (s.port p).laneFreed) hk]
  rfl

variable {x : Port} (beat : Word)

/-- TUNING entered from READY at a free lane with a KEEP due: the SET waits behind it (R61). -/
theorem tuningEntered_granted_keep {e : ProfileEntry} {es : Profile} (hl : x.lane = .free) (hk : x.keepDue = true)
    (hst : x.state = .ready) (hp : x.profile = e :: es) :
    (x.tuningEntered beat).granted = (x.nowTuning beat e).keepAgain x.silence true := by
  have hcall : (stepCall .tuning x.target).isSome = true := by cases x.target <;> rfl
  have hin : x.tuningEntered beat = { x.profileToSend beat with stepClaim := true } := by
    simp [Port.tuningEntered, Port.claimRaised, Port.profileToSend, hp, hcall]
  rw [hin, granted_of_keepDue] <;>
    simp [Port.profileToSend, Port.entered, Port.nowTuning, Port.keepAgain, PState.isAlive, hl, hk, hst]

/-- TUNING entered from READY with no profile, and left for READY, at a free lane with a KEEP due (R81). -/
theorem tuningEntered_granted_keep_nil (hl : x.lane = .free) (hk : x.keepDue = true) (hst : x.state = .ready)
    (hp : x.profile = []) :
    (x.tuningEntered beat).granted =
      (x.nowReady beat).keepAgain x.silence (x.stepClaim || decide (x.target ≠ .awake)) := by
  rw [Port.tuningEntered, if_pos hp, Port.tuned, granted_of_keepDue] <;>
    cases htar : x.target <;>
    simp [Port.readied, Port.profileToSend, Port.entered, Port.reachedIfGoal, Port.reachedTarget, Target.goal,
      Port.claimRaised, stepCall, Port.nowReady, Port.keepAgain, PState.isAlive, hl, hk, hst, htar]

end Failed

/-- Settles O14, by the attempt, the phrase and, for a KEEP, whether the port is to be tuned. -/
theorem ackWaitExpiryFailsTheAttempt : Obligations.AckWaitExpiryFailsTheAttempt := by
  intro p ph s h hl ha
  obtain ⟨t, ht, he, hframe⟩ := portEvent_ends_of_run h ((PortRun.refl (p := p)).attemptFails ph)
  have hacts := portEvent_acts ht
  refine ⟨t, (exec_ackWaitExpiry hl).trans ht, hframe, by rw [hacts, attemptFails_acts], fun hlast => ?_,
    fun hlast hname => step_faults hlast hname ha he, fun hlast hname => halt_stops hlast hname ha he hframe,
    fun hlast hname hk hno => keep_beginsAgain hlast hname hk hno he hframe,
    fun hlast hname hk hst hstale => ?_⟩
  · obtain ⟨honly, hregs, hport⟩ := attempt_retries hlast he hframe
    exact ⟨honly, hregs, by rw [hacts, attemptFails_retry hlast]; rfl, hport⟩
  · have hx := laneFreed_retuning hst
    rw [attemptFails_keep hlast hname, keepEnded_of_stale (by rwa [phraseOver_port])
      (by rwa [phraseOver_port])] at he
    obtain ⟨hregs, hport, hentry⟩ := ending_retunes he hx
    refine ⟨hregs, fun e es hp => ⟨?_, ?_⟩, fun hp => ⟨?_, ?_⟩⟩
    · exact ending_retunes_onlyPort he hframe laneFreed_waiters hx (by rw [hp]; exact List.cons_ne_nil e es)
    · exact hport.trans (tuningEntered_granted_keep _ rfl hk hst hp)
    · exact hport.trans (tuningEntered_granted_keep_nil _ rfl hk hst hp)
    · exact outcomes_of_entries fun e => (hentry e).trans (if_congr (and_iff_right hp) rfl rfl)

end Sys2Proof.Machine
end

section
/-! Identity records (O25). -/

set_option Elab.async false

namespace Sys2Proof.Machine

theorem one_le_toNat_iff (b : Byte) : 1 ≤ b.toNat ↔ b ≠ 0 :=
  Nat.one_le_iff_ne_zero.trans (BitVec.toNat_ne_iff_ne (y := (0 : Byte)))

/-- A class code is at most 254 when it is not 255 (Table 4-3). -/
theorem toNat_le_254_iff (b : Byte) : b.toNat ≤ 254 ↔ b ≠ 255 := by
  bv_omega

theorem table_take_seven (b : Table Byte 8) :
    b.items.take 7 = [b.get 0, b.get 1, b.get 2, b.get 3, b.get 4, b.get 5, b.get 6] := by
  obtain ⟨items, hsize⟩ := b
  match items, hsize with
  | [_, _, _, _, _, _, _, _], _ => rfl

/-- The sum that the last byte of a record has to show is that of the bytes before it (Table 4-3). -/
theorem recordSum_eq (b : Table Byte 8) :
    BitVec.ofNat 8 (((b.items.take 7).map (·.toNat)).sum) =
      b.get 0 + b.get 1 + b.get 2 + b.get 3 + b.get 4 + b.get 5 + b.get 6 := by
  rw [table_take_seven]
  simp [BitVec.ofNat_add, add_assoc]

/-- Settles O25: the range tests and the sum of `validateRecord` are those of Table 4-3, each by its own lemma. -/
theorem recordsAreValidatedByTable43 : Obligations.RecordsAreValidatedByTable43 := by
  intro b c
  unfold validateRecord
  simp only [recordSum_eq, one_le_toNat_iff, toNat_le_254_iff, Option.ite_none_right_eq_some, Option.some.injEq,
    and_assoc, eq_comm (b := c)]

end Sys2Proof.Machine
end

section
/-! What each event of the reader does to its port, to the reader and on the identity bus (R70 to R76). -/

set_option Elab.async false

namespace Sys2Proof.Machine

variable {p : PortNo} {s : State}

/-! ## The events of the reader -/

/-- The state with port `p`'s record changed, and with this reader and these wire acts. -/
def State.readerMoved (s : State) (p : PortNo) (f : Port → Port) (r : Reader) (acts : List WireAct) : State :=
  { s.modPort p f with reader := r, acts := acts }

/-- An event of the reader ends as its body leaves it: it gives the walker and the Status Writer nothing to begin. -/
theorem readerEvent_ends {c : Instr} {body : State → State} {f : Port → Port} {r : Reader} {acts : List WireAct}
    (h : s.settled = true) (hexec : exec c s = event body s) (hbody : body s.quiet = s.readerMoved p f r acts) :
    ∃ t, exec c s = .next t ∧ RigKept s t ∧ BoardKept s t ∧ RegsKept s t ∧ t.writer = s.writer ∧
      t.stampCounter = s.stampCounter ∧ OtherPortsKept p s t ∧ t.port p = f (s.port p) ∧ t.reader = r ∧
      t.acts = acts := by
  have hsettled : (body s.quiet).settled = true := by
    rw [hbody]
    exact (settled_congr (s := s) rfl rfl rfl).trans h
  refine ⟨s.readerMoved p f r acts, ?_, ⟨rfl, ⟨rfl, rfl⟩, ⟨rfl, rfl, rfl⟩, rfl, rfl⟩, ⟨rfl, rfl⟩, rfl, rfl, rfl,
    fun q hq => port_modPort_ne s f hq, port_modPort_self s p f, rfl, rfl⟩
  rw [hexec, event_of_settled hsettled, hbody]

/-- What begins the next read on the bus, if the queue holds one (R70). -/
def nextReadActs : List PortNo → List WireAct
  | [] => []
  | p :: _ => tryBeginActs p

theorem startNextRead_readerMoved (f : Port → Port) (r : Reader) (acts : List WireAct) :
    startNextRead (s.readerMoved p f r acts) =
      s.readerMoved p f { r with state := nextRead r.queue } (acts ++ nextReadActs r.queue) := by
  obtain ⟨queue, st⟩ := r
  cases queue with
  | nil => rw [nextReadActs, List.append_nil]; rfl
  | cons q rest => rfl

/-- A try begins with the device address, bit by bit (R71). -/
theorem tryBeginActs_bits (p : PortNo) :
    tryBeginActs p =
      [.idSelect p, .idStart, .idAddress ⟨[true, false, true, false, false, true, false], rfl⟩ false] := by
  rw [tryBeginActs, identityDevice_bits]

/-- The port whose join has been taken. -/
def Port.joinTaken (x : Port) : Port := { x with toReader := x.toReader.tail, joinTicket := 0 }

theorem takeJoin_quiet :
    takeJoin p s.quiet =
      if s.reader.state = .idle then
        s.readerMoved p Port.joinTaken
          { queue := s.reader.queue ++ [p], state := nextRead (s.reader.queue ++ [p]) }
          (nextReadActs (s.reader.queue ++ [p]))
      else s.readerMoved p Port.joinTaken { s.reader with queue := s.reader.queue ++ [p] } [] := by
  have hjoin : takeJoin p s.quiet =
      if s.reader.state = .idle then
        startNextRead (s.readerMoved p Port.joinTaken { s.reader with queue := s.reader.queue ++ [p] } [])
      else s.readerMoved p Port.joinTaken { s.reader with queue := s.reader.queue ++ [p] } [] := rfl
  rw [hjoin, startNextRead_readerMoved, List.nil_append]

/-- The port whose withdrawal has been taken. -/
def Port.withdrawalTaken (x : Port) : Port := { x with toReader := x.toReader.tail }

/-- What abandons a read on the bus: a stop condition, if its try is there (R76). -/
def ReaderState.abandonActs : ReaderState → List WireAct
  | .reading _ => [.idStop, .idRelease]
  | _ => []

theorem takeReaderWithdrawal_quiet :
    takeReaderWithdrawal p s.quiet =
      if s.reader.state.serves p then
        s.readerMoved p Port.withdrawalTaken
          { queue := s.reader.queue.erase p, state := nextRead (s.reader.queue.erase p) }
          (s.reader.state.abandonActs ++ nextReadActs (s.reader.queue.erase p))
      else s.readerMoved p Port.withdrawalTaken { s.reader with queue := s.reader.queue.erase p } [] := by
  have hnext := startNextRead_readerMoved (s := s) (p := p) Port.withdrawalTaken
    { s.reader with queue := s.reader.queue.erase p } s.reader.state.abandonActs
  rw [← hnext]
  unfold takeReaderWithdrawal
  dsimp only
  split
  · rename_i hst
    rw [if_neg (by rw [show s.reader.state = _ from hst]; exact Bool.false_ne_true)]
    rfl
  all_goals
    rename_i hst
    simp only [modPort_reader, quiet_reader, show s.reader.state = _ from hst, ReaderState.serves, beq_iff_eq,
      ReaderState.abandonActs]
    rfl

theorem deliverResult_quiet (v : IdResult) (acts : List WireAct) :
    deliverResult p v (s.quiet.emit acts) =
      s.readerMoved p (Port.resultHanded v)
        { queue := s.reader.queue.tail, state := nextRead s.reader.queue.tail }
        (acts ++ nextReadActs s.reader.queue.tail) :=
  startNextRead_readerMoved (s := s) (p := p) (Port.resultHanded v)
    { s.reader with queue := s.reader.queue.tail } acts

/-! ## The end of a try (R72, R74) -/

/-- The result of a read whose try has brought these bytes (R73, R74). -/
def recordResult (bytes : Table Byte 8) : IdResult :=
  match validateRecord bytes with
  | some c => .valid c
  | none => .plugBad

/-- The result that ends a read, if the try that has ended is its last (R72). -/
def tryVerdict (r : ReadInProgress) : TryResult → Option IdResult
  | .record bits => some (recordResult (bits.map laneData))
  | .noAck _ => if r.tryNo = 1 then none else some .plugNoack

/-- The reader after a try (R72, R74). -/
def Reader.afterTry (x : Reader) (r : ReadInProgress) : Option IdResult → Reader
  | none => { x with state := .retryWait r 10 }
  | some _ => { queue := x.queue.tail, state := nextRead x.queue.tail }

/-- What the reader begins on the bus after a try: the next read, when this one has ended (R74). -/
def Reader.actsAfterTry (x : Reader) : Option IdResult → List WireAct
  | none => []
  | some _ => nextReadActs x.queue.tail

/-- The port after a try of its read: a result of an earlier identification is not handed to it (R76). -/
def Port.verdictHanded (v : Option IdResult) (x : Port) : Port :=
  { x with
    idResults :=
      if x.state = .identifying ∧ .withdrawal ∈ x.toReader then x.idResults else x.idResults ++ v.toList }

theorem readIsPast_iff (x : Port) : x.readIsPast = true ↔ x.state = .identifying ∧ .withdrawal ∈ x.toReader := by
  simp [Port.readIsPast]

theorem verdictHanded_some (v : IdResult) : Port.verdictHanded (some v) = Port.resultHanded v := by
  funext x
  simp only [Port.verdictHanded, Port.resultHanded, readIsPast_iff, Option.toList_some]

theorem verdictHanded_none : Port.verdictHanded none = id := by
  funext x
  simp [Port.verdictHanded]

theorem endTry_quiet (r : ReadInProgress) (result : TryResult) :
    endTry r result s.quiet =
      s.readerMoved r.port (Port.verdictHanded (tryVerdict r result)) (s.reader.afterTry r (tryVerdict r result))
        (tryEndActs result ++ s.reader.actsAfterTry (tryVerdict r result)) := by
  cases result with
  | record bits =>
    rw [tryVerdict, verdictHanded_some]
    exact deliverResult_quiet _ _
  | noAck place =>
    rw [tryVerdict]
    unfold endTry
    dsimp only
    split
    · rw [verdictHanded_none, State.readerMoved, modPort_id, Reader.actsAfterTry, List.append_nil]
      rfl
    · rw [verdictHanded_some]
      exact deliverResult_quiet _ _

end Sys2Proof.Machine
end

section
/-! Joins, withdrawals and the tries of a read (O24, O26). -/

set_option Elab.async false

namespace Sys2Proof.Machine

variable {p : PortNo} {s : State}

/-- READER_JOIN of a join whose turn it is (R69, R70). -/
theorem readerJoin_joins {rest : List ReaderMsg} (h : s.settled = true) (hm : (s.port p).toReader = .join :: rest)
    (hfirst : ∀ q, .join ∈ (s.port q).toReader → (s.port p).joinTicket ≤ (s.port q).joinTicket) :
    ∃ t, exec (.readerJoin p) s = .next t ∧ RigKept s t ∧ BoardKept s t ∧ RegsKept s t ∧
      t.writer = s.writer ∧ t.stampCounter = s.stampCounter ∧ OtherPortsKept p s t ∧
      t.port p = { s.port p with toReader := rest, joinTicket := 0 } ∧
      t.reader.queue = s.reader.queue ++ [p] ∧
      (s.reader.state ≠ .idle → t.reader.state = s.reader.state ∧ t.acts = []) ∧
      (s.reader.state = .idle → s.reader.queue = [] →
        t.reader.state = .reading { port := p, tryNo := 1, bytes := [] } ∧
          t.acts =
            [.idSelect p, .idStart,
              .idAddress ⟨[true, false, true, false, false, true, false], rfl⟩ false]) := by
  have hexec : exec (.readerJoin p) s = event (takeJoin p) s :=
    execReaderJoin_taken hm fun q hq => hfirst q ((joining_iff _).1 hq)
  have htaken : (s.port p).joinTaken = { s.port p with toReader := rest, joinTicket := 0 } := by
    rw [Port.joinTaken, hm]; rfl
  have hbody := takeJoin_quiet (p := p) (s := s)
  by_cases hst : s.reader.state = .idle
  · rw [if_pos hst] at hbody
    obtain ⟨t, ht, hrig, hboard, hregs, hwriter, hstamp, hothers, hport, hreader, hacts⟩ :=
      readerEvent_ends h hexec hbody
    refine ⟨t, ht, hrig, hboard, hregs, hwriter, hstamp, hothers, hport.trans htaken, by rw [hreader],
      fun hbusy => absurd hst hbusy, fun _ hq => ⟨?_, ?_⟩⟩
    · rw [hreader, hq]; rfl
    · rw [hacts, hq]; exact tryBeginActs_bits p
  · rw [if_neg hst] at hbody
    obtain ⟨t, ht, hrig, hboard, hregs, hwriter, hstamp, hothers, hport, hreader, hacts⟩ :=
      readerEvent_ends h hexec hbody
    exact ⟨t, ht, hrig, hboard, hregs, hwriter, hstamp, hothers, hport.trans htaken, by rw [hreader],
      fun _ => ⟨by rw [hreader], hacts⟩, fun hidle => absurd hidle hst⟩

theorem exec_readerWithdrawal {rest : List ReaderMsg} (hm : (s.port p).toReader = .withdrawal :: rest) :
    exec (.readerWithdrawal p) s = event (takeReaderWithdrawal p) s := by
  simp [exec, execReaderWithdrawal, hm]

/-- READER_WITHDRAWAL, by whether the port's own read is in progress (R76). -/
theorem readerWithdrawal_leaves {rest : List ReaderMsg} (h : s.settled = true)
    (hm : (s.port p).toReader = .withdrawal :: rest) :
    ∃ t, exec (.readerWithdrawal p) s = .next t ∧ RigKept s t ∧ BoardKept s t ∧ RegsKept s t ∧
      t.writer = s.writer ∧ t.stampCounter = s.stampCounter ∧ OtherPortsKept p s t ∧
      t.port p = { s.port p with toReader := rest } ∧ t.reader.queue = s.reader.queue.erase p ∧
      (s.reader.state.serves p = true →
        t.reader.state = nextRead (s.reader.queue.erase p) ∧
          t.acts = s.reader.state.abandonActs ++ nextReadActs (s.reader.queue.erase p)) ∧
      (s.reader.state.serves p = false → t.reader.state = s.reader.state ∧ t.acts = []) := by
  have hexec := exec_readerWithdrawal hm
  have htaken : (s.port p).withdrawalTaken = { s.port p with toReader := rest } := by
    rw [Port.withdrawalTaken, hm]; rfl
  have hbody := takeReaderWithdrawal_quiet (p := p) (s := s)
  cases hs : s.reader.state.serves p with
  | true =>
    rw [hs, if_pos rfl] at hbody
    obtain ⟨t, ht, hrig, hboard, hregs, hwriter, hstamp, hothers, hport, hreader, hacts⟩ :=
      readerEvent_ends h hexec hbody
    exact ⟨t, ht, hrig, hboard, hregs, hwriter, hstamp, hothers, hport.trans htaken, by rw [hreader],
      fun _ => ⟨by rw [hreader], hacts⟩, nofun⟩
  | false =>
    rw [hs, if_neg Bool.false_ne_true] at hbody
    obtain ⟨t, ht, hrig, hboard, hregs, hwriter, hstamp, hothers, hport, hreader, hacts⟩ :=
      readerEvent_ends h hexec hbody
    exact ⟨t, ht, hrig, hboard, hregs, hwriter, hstamp, hothers, hport.trans htaken, by rw [hreader],
      nofun, fun _ => ⟨by rw [hreader], hacts⟩⟩

theorem serves_reading (r : ReadInProgress) : (ReaderState.reading r).serves p = decide (r.port = p) := rfl

theorem serves_retryWait (r : ReadInProgress) (d : Nat) :
    (ReaderState.retryWait r d).serves p = decide (r.port = p) := rfl

/-- Settles O24: a join and a withdrawal by their own lemmas, and the order of the joins by their tickets. -/
theorem readerJoinsAndWithdrawals : Obligations.ReaderJoinsAndWithdrawals := by
  refine ⟨fun p rest s => readerJoin_joins, fun p q s _ hq => ?_, fun p rest s h hm => ?_⟩
  · have hjoining := (joining_iff _).2 hq
    exact ⟨joinTicket_lt_nextTicket hjoining, execReaderJoin_waits hjoining⟩
  · intro next
    obtain ⟨t, ht, hrig, hboard, hregs, hwriter, hstamp, hothers, hport, hqueue, hserved, hother⟩ :=
      readerWithdrawal_leaves h hm
    have hnext : nextRead (s.reader.queue.erase p) = next := rfl
    refine ⟨t, ht, hrig, hboard, hregs, hwriter, hstamp, hothers, hport, hqueue, fun r hst hr => ?_,
      fun r d hst hr => ?_, fun r hst hr => ?_, fun r d hst hr => ?_, fun hst => ?_⟩
    · rw [hst, serves_reading, decide_eq_true hr] at hserved
      obtain ⟨hstate, hacts⟩ := hserved rfl
      exact ⟨hstate.trans hnext, by rw [hacts]; rfl⟩
    · rw [hst, serves_retryWait, decide_eq_true hr] at hserved
      exact (hserved rfl).1.trans hnext
    · exact hother (by rw [hst, serves_reading, decide_eq_false hr])
    · exact hother (by rw [hst, serves_retryWait, decide_eq_false hr])
    · exact ((hother (by rw [hst]; rfl)).1).trans hst

theorem exec_tryEnd {r : ReadInProgress} (hst : s.reader.state = .reading r) (result : TryResult) :
    exec (.tryEnd result) s = event (endTry r result) s := by
  simp [exec, execTryEnd, hst]

theorem exec_plugReadRetryExpiry {r : ReadInProgress} (hst : s.reader.state = .retryWait r 0) :
    exec .plugReadRetryExpiry s = event (secondTry r) s := by
  simp [exec, execPlugReadRetryExpiry, hst]

theorem secondTry_quiet (r : ReadInProgress) :
    secondTry r s.quiet =
      s.readerMoved r.port id { s.reader with state := .reading { port := r.port, tryNo := 2, bytes := [] } }
        (tryBeginActs r.port) := by
  rw [State.readerMoved, modPort_id]
  rfl

/-- Settles O26: each try ends as `endTry_quiet` says, and its verdict is that of the bytes on the bus. -/
theorem triesDeliverOrRetry : Obligations.TriesDeliverOrRetry := by
  refine ⟨fun r result bits bytes s h hst hbits hresult => ?_, fun r s h hst => ?_⟩
  · intro device offset verdict
    obtain ⟨t, ht, hrig, hboard, hregs, hwriter, hstamp, hothers, hport, hreader, hacts⟩ :=
      readerEvent_ends h (exec_tryEnd hst result) (endTry_quiet r result)
    have hverdict : tryVerdict r result = verdict := by
      obtain rfl | rfl | rfl | rfl := hresult
      · exact congrArg (fun b => some (recordResult b)) (map_laneData hbits)
      all_goals rfl
    rw [hverdict] at hport hreader hacts
    refine ⟨t, ht, hrig, hboard, hregs, hwriter, hstamp, hothers, hport, ?_, ?_⟩
    · rw [show device = identityDevice from identityDevice_bits.symm,
        show offset = identityOffset from identityOffset_bits.symm, hacts]
      refine congrArg (tryEndActs result ++ ·) ?_
      cases verdict with
      | none => rfl
      | some v =>
        rw [Reader.actsAfterTry]
        cases s.reader.queue.tail <;> rfl
    · rw [hreader]
      cases verdict <;> rfl
  · obtain ⟨t, ht, hrig, hboard, hregs, hwriter, hstamp, hothers, hport, hreader, hacts⟩ :=
      readerEvent_ends h (exec_plugReadRetryExpiry hst) (secondTry_quiet r)
    have hports : PortsKept s t := Table.ext_get fun q => by
      by_cases hq : q = r.port
      · rw [hq]; exact hport
      · exact hothers q hq
    exact ⟨t, ht, hrig, hboard, hregs, hwriter, hstamp, hports, hreader, hacts.trans (tryBeginActs_bits r.port)⟩

end Sys2Proof.Machine
end

section
/-! The plug put in (O22). -/

set_option Elab.async false

namespace Sys2Proof.Machine

variable {p : PortNo} {s : State}

/-! ## The sense input (R67) -/

theorem exec_plugSenseChange (seated : Bool) :
    exec (.plugSenseChange p seated) s =
      if seated ≠ (s.port p).plugLevel then
        portEvent p (fun s => s.modPort p fun x => { x with plugLevel := seated, plugDebounce := some 50 }) s
      else noEvent s := rfl

/-- A change of the input's level sets the debounce anew (R67). -/
theorem plugSenseChange_setsDebounce {seated : Bool} (h : s.settled = true) (hne : seated ≠ (s.port p).plugLevel) :
    ∃ t, exec (.plugSenseChange p seated) s = .next t ∧ OnlyPort p s t ∧ RegsKept s t ∧
      t.port p = { s.port p with plugLevel := seated, plugDebounce := some 50 } := by
  obtain ⟨t, ht, honly, hregs, -, hport⟩ := laneEvent_ends h ((exec_plugSenseChange seated).trans (if_pos hne))
    PortRun.refl.mod rfl
  exact ⟨t, ht, honly, hregs, hport.trans (port_modPort_self _ _ _)⟩

/-! ## The debounced input (R67) -/

theorem plugDebounced_insertion (hl : (s.port p).plugLevel = true) (hp : (s.port p).plugged = false) :
    plugDebounced p s = insertPlug p (s.modPort p Port.plugSettled) := by
  simp [plugDebounced, hl, hp]; rfl

theorem plugDebounced_agrees (h : (s.port p).plugLevel = (s.port p).plugged) :
    plugDebounced p s = s.modPort p Port.plugSettled := by
  cases hp : (s.port p).plugged <;> simp [plugDebounced, h, hp] <;> rfl

/-- The tickets of joins on their way do not depend on the plug debounce. -/
theorem nextTicket_plugSettled : (s.modPort p Port.plugSettled).nextTicket = s.nextTicket :=
  nextTicket_congr fun q => by
    rw [port_modPort]
    split <;> rename_i hq
    · rw [hq]; rfl
    · rfl

/-- A debounced input that agrees with plugged (R67). -/
theorem plugDebounceExpiry_agrees (h : s.settled = true) (hdue : (s.port p).plugDebounce = some 0)
    (heq : (s.port p).plugLevel = (s.port p).plugged) :
    ∃ t, exec (.plugDebounceExpiry p) s = .next t ∧ OnlyPort p s t ∧ RegsKept s t ∧
      t.port p = { s.port p with plugDebounce := none } := by
  have hexec : exec (.plugDebounceExpiry p) s = portEvent p (plugDebounced p) s :=
    execPlugDebounceExpiry_taken hdue fun hd => by
      obtain ⟨-, hlevel, hplugged⟩ := (insertDue_iff _).1 hd
      rw [hlevel, hplugged] at heq
      cases heq
  have hbody := plugDebounced_agrees (p := p) (s := s.quiet) heq
  obtain ⟨t, ht, honly, hregs, -, hport⟩ := laneEvent_ends h hexec
    (by rw [hbody]; exact PortRun.refl.mod) (by rw [hbody]; rfl)
  exact ⟨t, ht, honly, hregs, by rw [hport, hbody, port_modPort_self]; rfl⟩

/-! ## The insertion (R18, R68, R69) -/

@[simp] theorem insertPlug_regs :
    (insertPlug p s).regs = if (s.port p).state = .identifying then s.regs else s.regs.caused 2 := by
  simp [insertPlug, State.handJoin]

/-- An EMPTY port with a cable newly seated (R68). -/
theorem inserted_of_empty {x : Port} (ticket : Nat) (beat : Word) (hst : x.state = .empty) :
    x.inserted ticket beat =
      { x with
        state := .identifying, plugged := true, stateBeat := beat, timer := none, silence := 0, keepDue := false
        stepClaim := false, cursor := 0, restart := false, idResults := []
        toReader := x.toReader ++ [.join], joinTicket := ticket } := by
  simp [Port.inserted, Port.joinHanded, Port.entered, PState.isAlive, hst]

/-- PLUG_DEBOUNCE_EXPIRY of an insertion whose turn it is (R68, R69). -/
theorem plugDebounceExpiry_inserts (h : s.settled = true) (hdue : (s.port p).plugDebounce = some 0)
    (hlevel : (s.port p).plugLevel = true) (hplugged : (s.port p).plugged = false)
    (hst : (s.port p).state = .empty)
    (hfirst : ∀ q, (s.port q).insertDue = true → (s.port q).insertWait ≤ (s.port p).insertWait) :
    ∃ t, exec (.plugDebounceExpiry p) s = .next t ∧ OnlyPort p s t ∧ CausesSet 0x02 s t ∧
      PostedWhileAttached (.port p) s t ∧
      t.port p =
        { s.port p with
          state := .identifying, plugged := true, stateBeat := s.cadence.beat, plugDebounce := none
          timer := none, silence := 0, keepDue := false, stepClaim := false, cursor := 0
          restart := false, idResults := [], toReader := (s.port p).toReader ++ [.join]
          joinTicket := s.nextTicket } := by
  have hexec : exec (.plugDebounceExpiry p) s = portEvent p (plugDebounced p) s :=
    execPlugDebounceExpiry_taken hdue fun _ => hfirst
  have hbody := plugDebounced_insertion (p := p) (s := s.quiet) hlevel hplugged
  obtain ⟨t, ht, he, honly⟩ := portEvent_ends_of_quietRun (body := plugDebounced p) (p := p) h
    (by rw [hbody]; exact (PortRun.refl.modPort Port.plugSettled fun _ => rfl).insertPlug)
  rw [hbody] at he
  have hport : t.port p = (s.port p).plugSettled.inserted s.nextTicket s.cadence.beat := by
    rw [he.port, insertPlug_port, port_modPort_self, nextTicket_plugSettled]; rfl
  rw [inserted_of_empty _ _ (show (s.port p).plugSettled.state = .empty from hst)] at hport
  refine ⟨t, hexec.trans ht, honly, ?_, he.posted ?_, hport⟩
  · rw [causesSet_iff, he.regs]
    simp [Port.plugSettled, hst]
  · exact published_ne_of_state (a := .identifying) (by rw [hport]) hst (by decide)

/-- Settles O22, each command and each reading of the debounced input by its own lemma. -/
theorem plugSenseAndInsertion : Obligations.PlugSenseAndInsertion := by
  unfold Obligations.PlugSenseAndInsertion
  intro insertion
  have hinsertion : ∀ q s, insertion q s ↔ (s.port q).insertDue = true := fun q s => (insertDue_iff _).symm
  refine ⟨fun p seated s h => ⟨plugSenseChange_setsDebounce h, fun heq => ?_⟩, fun p s h hdue =>
    ⟨fun hlevel hplugged hst hfirst => ?_, fun q hp hq => ?_, plugDebounceExpiry_agrees h hdue⟩⟩
  · exact (exec_plugSenseChange seated).trans (if_neg (not_not.2 heq))
  · exact plugDebounceExpiry_inserts h hdue hlevel hplugged hst fun q hq => hfirst q ((hinsertion q s).2 hq)
  · exact execPlugDebounceExpiry_waits ((hinsertion p s).1 hp) ((hinsertion q s).1 hq)

end Sys2Proof.Machine
end

section
/-! The result of an identity read at its port (O27). -/

set_option Elab.async false

namespace Sys2Proof.Machine

variable {p : PortNo} {s : State}

/-- The port with these results left to take. -/
def Port.resultsLeft (rest : List IdResult) (x : Port) : Port := { x with idResults := rest }

theorem exec_identityResult {r : IdResult} {rest : List IdResult} (hr : (s.port p).idResults = r :: rest) :
    exec (.identityResult p) s =
      portEvent p (fun s => takeIdResult p r (s.modPort p (Port.resultsLeft rest))) s := by
  simp [exec, execIdentityResult, hr]; rfl

/-! ## What the port does with a result (R74) -/

/-- The result of an identity read is taken off the port's list, and nothing put on it. -/
theorem resultTaken_results (x : Port) (r : IdResult) (beat : Word) :
    (x.resultTaken r beat).idResults = x.idResults := by
  by_cases hst : x.state = .identifying
  · exact (resultTaken_passes hst r beat).1.results
  · rw [resultTaken_of_ne hst]

/-- A valid record takes an IDENTIFYING port with target OFF to OFF (R18, R19). -/
theorem resultTaken_valid {x : Port} (c : ClassRecord) (beat : Word) (hst : x.state = .identifying)
    (htar : x.target = .off) :
    x.resultTaken (.valid c) beat =
      { x with
        classRecord := some c, state := .off, stateBeat := beat, timer := none, silence := 0, keepDue := false
        stepClaim := false, cursor := 0, restart := false, bootAttempts := 0, tripCount := 0, recovery := 0
        waiters := [] } := by
  simp [Port.resultTaken, Port.wentOff, Port.countsCleared, Port.entered, Port.reachedTarget, PState.isAlive, hst, htar]

/-- The fault of an IDENTIFYING port, which has no rail to cut and holds nothing with the governor (R7). -/
theorem faultEntered_of_identifying {x : Port} (why : FaultReason) (beat : Word) (hst : x.state = .identifying) :
    x.faultEntered why beat =
      { x with
        state := .faulted why, stateBeat := beat, timer := none, silence := 0, keepDue := false
        stepClaim := false, cursor := 0, restart := false, target := .off, endReason := .fault why
        waiters := [] } := by
  simp [Port.faultEntered, Port.railCut, Port.railOn, PState.railOn, Port.gaveUp, PState.isWarming, Port.entered,
    PState.isAlive, hst]

theorem takeIdResult_discarded (hst : (s.port p).state ≠ .identifying) (r : IdResult) : takeIdResult p r s = s :=
  if_neg hst

theorem takeIdResult_valid (hst : (s.port p).state = .identifying) (c : ClassRecord) :
    takeIdResult p (.valid c) s = enterOff p (s.modPort p fun x => { x with classRecord := some c }) :=
  if_pos hst

theorem takeIdResult_fault {r : IdResult} {why : FaultReason} (hst : (s.port p).state = .identifying)
    (hr : (r = .plugBad ∧ why = .plugBad) ∨ (r = .plugNoack ∧ why = .plugNoack)) :
    takeIdResult p r s = fault p why s := by
  obtain ⟨rfl, rfl⟩ | ⟨rfl, rfl⟩ := hr <;> exact if_pos hst

/-- Settles O27, by the port's state and the result. -/
theorem identityResultEndsIdentification : Obligations.IdentityResultEndsIdentification := by
  intro p r rest s h hr htar
  obtain ⟨t, ht, he, hframe⟩ := portEvent_ends_of_run (p := p) h
    (body := fun s => takeIdResult p r (s.modPort p (Port.resultsLeft rest)))
    ((PortRun.refl.modPort (Port.resultsLeft rest) fun _ => rfl).takeIdResult r)
  have hleft : (s.quiet.modPort p (Port.resultsLeft rest)).port p = (s.port p).resultsLeft rest :=
    port_modPort_self _ _ _
  have hport : t.port p = ((s.port p).resultsLeft rest).resultTaken r s.cadence.beat := by
    rw [he.port, takeIdResult_port, hleft]; rfl
  refine ⟨t, (exec_identityResult hr).trans ht, hframe, by rw [hport, resultTaken_results]; rfl, fun hne => ?_,
    fun hst => ⟨fun c hc => ?_, fun why hwhy => ?_⟩⟩
  · rw [takeIdResult_discarded (by rwa [hleft])] at he
    exact ⟨he.regs, he.port.trans hleft⟩
  · rw [hc, takeIdResult_valid (by rwa [hleft])] at he
    rw [hc, resultTaken_valid (x := (s.port p).resultsLeft rest) c _ hst htar] at hport
    refine ⟨?_, by rw [hport]; exact ⟨rfl, rfl, htar, rfl, rfl, rfl, rfl, rfl, rfl⟩⟩
    rw [causesSet_iff, he.regs, enterOff_regs]
    · rfl
    · rw [port_modPort_self, hleft]
      exact hst.trans_ne (by decide)
  · rw [takeIdResult_fault (by rwa [hleft]) hwhy] at he
    have hfaulted := he.port
    rw [fault_port, hleft, faultEntered_of_identifying (x := (s.port p).resultsLeft rest) _ _ hst] at hfaulted
    refine ⟨?_, by rw [hfaulted]; exact ⟨rfl, rfl, rfl, rfl⟩⟩
    rw [causesSet_iff, he.regs, fault_regs]
    · rfl
    · rw [hleft]
      exact hst.trans_ne nofun

end Sys2Proof.Machine
end

section
/-! A SET that ends OK (O17): the next entry of the profile, the first of one stored meanwhile, or READY. -/

set_option Elab.async false

namespace Sys2Proof.Machine

variable {p : PortNo} {s : State}

/-! ## The entry that a TUNING port sends next (R82) -/

section Next

variable {x : Port} {e : ProfileEntry} (beat : Word)

/-- A port in TUNING calls for a step phrase whatever its target (R15). -/
theorem stepCall_tuning_isSome (t : Target) : (stepCall .tuning t).isSome = true := by cases t <;> rfl

theorem chooseStep_tuning (hst : x.state = .tuning) (hentry : x.profile[x.cursor]? = some e) :
    x.chooseStep = some (if x.target = .off then newPhrase .halt [] else newPhrase .set e.payload) := by
  cases htar : x.target <;>
    simp [Port.chooseStep, Port.stepPayload, stepCall, ProfileEntry.payload, hst, hentry, htar]

/-- The claim of a TUNING port raised at a free lane with no keepalive due (R61, R62). -/
theorem claimRaised_granted_tuning (hst : x.state = .tuning) (hl : x.lane = .free) (hk : x.keepDue = false)
    (hentry : x.profile[x.cursor]? = some e) :
    x.claimRaised.granted = { x with stepClaim := false, lane := x.tuningLane e } := by
  have hclaim : x.claimRaised = { x with stepClaim := true } := by
    rw [Port.claimRaised, hst, stepCall_tuning_isSome, Bool.or_true]
  have hchoose : ({ x with stepClaim := true } : Port).chooseStep = _ := chooseStep_tuning hst hentry
  rw [hclaim, Port.granted, if_pos hl, if_neg (by simp [hk]), if_pos rfl, hchoose]
  rfl

/-- The end of tuning at a free lane with no keepalive due (R83). -/
theorem tuned_granted (hl : x.lane = .free) (hk : x.keepDue = false) (hs : x.silence = 0) (hst : x.state ≠ .ready) :
    (x.tuned beat).granted = x.nowReady beat :=
  readied_granted (x := { x with stale := false, cursor := 0, restart := false }) beat hl hk hs hst rfl

end Next

/-! ## The end of a SET (R83, R87) -/

/-- The port with its cursor past the SET that ended: at the next entry, or at the first where a replacement has been
taken meanwhile. -/
def Port.setPassed (x : Port) : Port :=
  if x.restart then { x with cursor := 0, restart := false } else { x with cursor := x.cursor + 1 }

theorem setPassed_of_restart {x : Port} (h : x.restart = true) :
    x.setPassed = { x with cursor := 0, restart := false } := if_pos h

theorem setPassed_of_going {x : Port} (h : x.restart = false) : x.setPassed = { x with cursor := x.cursor + 1 } :=
  if_neg (by simp [h])

theorem setPassed_waiters (x : Port) : x.setPassed.waiters = x.waiters := by unfold Port.setPassed; split <;> rfl

/-- An entry is left to send (R82, R87). -/
theorem setDone_of_entry (h : (s.port p).setPassed.cursor < (s.port p).setPassed.profile.length) :
    setDone p s = raiseClaim p (s.modPort p Port.setPassed) := by
  unfold setDone
  dsimp only
  cases hr : (s.port p).restart with
  | true =>
    rw [setPassed_of_restart hr] at h
    rw [if_pos rfl, if_neg (List.ne_nil_of_length_pos h)]
    simp only [State.modPort, setPassed_of_restart hr]
  | false =>
    rw [setPassed_of_going hr] at h
    rw [if_neg (by decide), if_pos h]
    simp only [State.modPort, setPassed_of_going hr]

/-- No entry is left to send (R83, R87). -/
theorem setDone_of_last (h : (s.port p).setPassed.profile.length ≤ (s.port p).setPassed.cursor) :
    setDone p s = finishTuning p s := by
  unfold setDone
  dsimp only
  cases hr : (s.port p).restart with
  | true =>
    rw [setPassed_of_restart hr] at h
    rw [if_pos rfl, if_pos (List.length_eq_zero_iff.1 (Nat.le_zero.1 h)), finishTuning,
      modPort_modPort]
    rfl
  | false =>
    rw [setPassed_of_going hr] at h
    rw [if_neg (by decide), if_neg (Nat.not_lt.2 h)]

theorem endOfReception_setPassed (x : Port) : x.endOfReception.setPassed = x.setPassed.endOfReception := by
  unfold Port.endOfReception Port.exchanged Port.laneFreed Port.setPassed
  split_ifs <;> rfl

theorem setPassed_state (x : Port) : x.setPassed.state = x.state := by unfold Port.setPassed; split <;> rfl

theorem setPassed_target (x : Port) : x.setPassed.target = x.target := by unfold Port.setPassed; split <;> rfl

section Ends

variable {t : State} {ph : Phrase}

theorem phraseEndsOk_set (hname : ph.name = .set) :
    phraseEndsOk p ph s.quiet = grantPoint p (setDone p (s.phraseOver p Port.endOfReception)) :=
  phraseEndsOk_step hname PhraseName.noConfusion

/-- A SET that ends OK with an entry left to send (R82, R87). -/
theorem set_sends {e : ProfileEntry} (hname : ph.name = .set) (hst : (s.port p).state = .tuning)
    (he : PortEventEnds p s (phraseEndsOk p ph s.quiet) t) (hframe : PortAndOutcomes p s t)
    (hentry : (s.port p).setPassed.profile[(s.port p).setPassed.cursor]? = some e) :
    OnlyPort p s t ∧ RegsKept s t ∧
      t.port p =
        { (s.port p).setPassed with
          silence := 0, keepDue := false, stepClaim := false, lane := (s.port p).tuningLane e } := by
  have hpassed := endOfReception_of_alive (x := (s.port p).setPassed) (by rw [setPassed_state, hst]; rfl)
  obtain ⟨hlt, -⟩ := List.getElem?_eq_some_iff.1 hentry
  rw [phraseEndsOk_set hname,
    setDone_of_entry (by rw [phraseOver_port, endOfReception_setPassed, hpassed]; exact hlt)] at he
  obtain ⟨honly, hregs, hport⟩ := ending_quiet he hframe endOfReception_waiters
    (PortRun.refl.modPort Port.setPassed setPassed_waiters).raiseClaim
  refine ⟨honly, hregs, ?_⟩
  rw [hport, raiseClaim_port, port_modPort_self, phraseOver_port, endOfReception_setPassed,
    claimRaised_granted_tuning (e := e) (by rw [endOfReception_state, setPassed_state, hst])] <;>
    rw [hpassed]
  · simp only [Port.tuningLane, setPassed_target]
  · exact hentry

/-- A SET that ends OK with no entry left to send (R83, R87). -/
theorem set_readies (hname : ph.name = .set) (hst : (s.port p).state = .tuning)
    (he : PortEventEnds p s (phraseEndsOk p ph s.quiet) t)
    (hlast : (s.port p).setPassed.profile.length ≤ (s.port p).setPassed.cursor) :
    ReadyEntered p (s.port p) s t := by
  have ha : (s.port p).state.isAlive = true := by rw [hst]; rfl
  obtain ⟨hlane, hk, hsilence⟩ := endOfReception_fields ha
  have hne : (s.port p).endOfReception.state ≠ .ready := by rw [endOfReception_state, hst]; decide
  rw [phraseEndsOk_set hname,
    setDone_of_last (by
      rw [phraseOver_port, endOfReception_setPassed,
        endOfReception_of_alive (by rw [setPassed_state, hst]; rfl)]
      exact hlast)] at he
  refine readyEntered_of ?_ ?_ fun e => ?_
  · rw [causesSet_iff, he.regs, grantPoint_regs, finishTuning_regs, phraseOver_port, if_neg hne]
    rfl
  · rw [he.port, grantPoint_port, finishTuning_port, phraseOver_port, phraseOver_cadence,
      tuned_granted _ hlane hk hsilence hne, nowReady_endOfReception _ ha]
  · have hafter : (s.phraseOver p Port.endOfReception).entryAfter p .reached e = s.entryAfter p .reached e :=
      entryAfter_congr _ _ (by rw [phraseOver_port, endOfReception_waiters]) rfl
    rw [he.entry, grantPoint_entry, finishTuning_entry, phraseOver_port, endOfReception_target, hafter,
      phraseOver_entry]

end Ends

/-- Settles O17, by whether an entry is left to send. -/
theorem setEndsOk : Obligations.SetEndsOk := by
  intro p ph n s h hl hcheck hname hst x
  obtain ⟨t, ht, he, hframe, -⟩ := partPhraseEndOk_ends h hl hcheck
  refine ⟨t, ht, hframe, fun e hr hentry => ?_, fun e hr hentry => ?_, fun hlast => ?_⟩
  · have hpassed := setPassed_of_going (x := s.port p) hr
    have hsent := set_sends (e := e) hname hst he hframe (by rwa [hpassed])
    rwa [hpassed] at hsent
  · have hpassed := setPassed_of_restart (x := s.port p) hr
    have hsent := set_sends (e := e) hname hst he hframe (by rwa [hpassed])
    rwa [hpassed] at hsent
  · refine set_readies hname hst he ?_
    split at hlast <;> rename_i hr
    · rw [setPassed_of_restart hr]
      exact Nat.le_zero.2 (List.length_eq_zero_iff.2 hlast)
    · rw [setPassed_of_going (Bool.eq_false_of_not_eq_true hr)]
      exact hlast

end Sys2Proof.Machine
end

section
/-! A profile replacement at its port (O46): stored in every state, and the port tuned anew by its state and its
lane. -/

set_option Elab.async false

namespace Sys2Proof.Machine

variable {p : PortNo} {s : State}

/-! ## What tuning anew keeps of a port -/

namespace Port

variable {x : Port} (b : Word)

/-- The profile stored, the target and its stamp: the first is all of the three that a replacement changes (R85). -/
def wish (x : Port) : Profile × Target × Word := (x.profile, x.target, x.stamp)

/-- A grant point changes the lane and the step claim alone (R61). -/
theorem granted_eq (x : Port) : ∃ lane claim, x.granted = { x with lane := lane, stepClaim := claim } := by
  unfold granted
  split_ifs
  · exact ⟨_, _, rfl⟩
  · split <;> exact ⟨_, _, rfl⟩
  all_goals exact ⟨x.lane, x.stepClaim, rfl⟩

@[simp] theorem granted_wish : x.granted.wish = x.wish := by
  obtain ⟨lane, claim, h⟩ := x.granted_eq
  rw [h]; rfl

@[simp] theorem entered_wish (st : PState) : (x.entered st b).wish = x.wish := by unfold entered; split <;> rfl

@[simp] theorem claimRaised_wish : x.claimRaised.wish = x.wish := rfl

@[simp] theorem reachedIfGoal_wish : x.reachedIfGoal.wish = x.wish := by unfold reachedIfGoal; split <;> rfl

@[simp] theorem tuned_wish : (x.tuned b).wish = x.wish := by
  rw [tuned, readied, claimRaised_wish, reachedIfGoal_wish, entered_wish]; rfl

@[simp] theorem tuningEntered_wish : (x.tuningEntered b).wish = x.wish := by
  have hsend : (x.profileToSend b).wish = x.wish := entered_wish b .tuning
  unfold tuningEntered
  split <;> simp [hsend]

/-- A replacement stores its list, and changes neither the target nor its stamp (R85). -/
theorem profileReplaced_wish (l : Profile) : (x.profileReplaced l b).wish = (l, x.target, x.stamp) := by
  unfold profileReplaced
  dsimp only
  split
  · split
    · rfl
    · rw [granted_wish]
      split
      · rw [tuned_wish]; rfl
      · rfl
  · split
    · rfl
    · rw [granted_wish, tuningEntered_wish]; rfl
  all_goals rfl

/-- A port in READY, tuned, since this beat (R24, R83). -/
structure InReady (x y : Port) (b : Word) : Prop where
  state : y.state = .ready
  stale : y.stale = false
  cursor : y.cursor = 0
  stateBeat : y.stateBeat = b
  silence : y.silence = x.silence

theorem InReady.granted {y : Port} (h : InReady x y b) : InReady x y.granted b := by
  obtain ⟨lane, claim, heq⟩ := y.granted_eq
  rw [heq]
  exact ⟨h.state, h.stale, h.cursor, h.stateBeat, h.silence⟩

theorem tuned_inReady (hst : x.state ≠ .ready) : InReady x (x.tuned b) b := by
  have hreached : ∀ y : Port, InReady x y b → InReady x y.reachedIfGoal.claimRaised b := fun y h => by
    unfold reachedIfGoal
    split <;> exact ⟨h.state, h.stale, h.cursor, h.stateBeat, h.silence⟩
  refine hreached _ ?_
  rw [entered, if_neg hst]
  exact ⟨rfl, rfl, rfl, rfl, rfl⟩

/-- TUNING entered from READY (R81). -/
theorem profileToSend_of_ready (hst : x.state = .ready) :
    x.profileToSend b =
      { x with state := .tuning, stateBeat := b, timer := none, cursor := 0, restart := false, stale := true } := by
  rw [profileToSend, entered, if_neg (by rw [hst]; decide)]
  rfl

/-- TUNING entered from READY with no profile, and left again for READY (R81). -/
theorem tuningEntered_inReady (hst : x.state = .ready) (hp : x.profile = []) : InReady x (x.tuningEntered b) b := by
  obtain ⟨h₁, h₂, h₃, h₄, h₅⟩ := tuned_inReady (x := x.profileToSend b) b
    (by rw [profileToSend_of_ready b hst]; exact PState.noConfusion)
  rw [tuningEntered, if_pos hp]
  exact ⟨h₁, h₂, h₃, h₄, h₅.trans (by rw [profileToSend_of_ready b hst])⟩

/-- TUNING entered from READY with a profile: its claim is raised (R62, R81). -/
theorem tuningEntered_of_ready (hst : x.state = .ready) (hp : x.profile ≠ []) :
    x.tuningEntered b =
      { x with
        state := .tuning, stateBeat := b, timer := none, cursor := 0, restart := false, stale := true
        stepClaim := true } := by
  rw [tuningEntered, if_neg hp, profileToSend_of_ready b hst, claimRaised]
  simp only [stepCall_tuning_isSome, Bool.or_true]

/-- TUNING entered from READY at a free lane with no keepalive due (R81). -/
theorem tuningEntered_granted_of_ready {e : ProfileEntry} {es : Profile} (hst : x.state = .ready)
    (hl : x.lane = .free) (hk : x.keepDue = false) (hp : x.profile = e :: es) :
    (x.tuningEntered b).granted = { x.nowTuning b e with silence := x.silence } := by
  have hsend := profileToSend_of_ready b hst
  have hgranted := claimRaised_granted_tuning (x := x.profileToSend b) (e := e) (by rw [hsend])
    (by rw [hsend]; exact hl) (by rw [hsend]; exact hk) (by rw [hsend]; simp [hp])
  rw [tuningEntered, if_neg (by rw [hp]; exact List.cons_ne_nil e es), hgranted, hsend]
  simp [nowTuning, tuningLane, hst, hk]

/-- The port with a replacement taken off its list and stored (R85). -/
def listStored (list : Profile) (more : List Profile) (x : Port) : Port :=
  { x with replacements := more, profile := list }

/-- The port with a replacement stored that it has still to send (R85). -/
def listDue (list : Profile) (more : List Profile) (x : Port) : Port :=
  { x.listStored list more with stale := true }

end Port

/-! ## The body of the event (Table 5-2) -/

/-- The port takes the oldest replacement off its list and stores it (R85). -/
def replacementTaken (p : PortNo) (list : Profile) (more : List Profile) (s : State) : State :=
  takeReplacement p list (s.modPort p fun x => { x with replacements := more })

theorem exec_profileReplacement {list : Profile} {more : List Profile}
    (hr : (s.port p).replacements = list :: more) :
    exec (.profileReplacement p) s = portEvent p (replacementTaken p list more) s := by
  simp [exec, execProfileReplacement, hr]
  rfl

section Body

variable {list : Profile} {more : List Profile}

/-- A port that is neither alive nor STOPPING keeps the list for its next start (R89). -/
theorem replacementTaken_idle (hna : (s.port p).state.isAlive = false) (hst : (s.port p).state ≠ .stopping) :
    replacementTaken p list more s = s.modPort p (Port.listStored list more) := by
  unfold replacementTaken takeReplacement
  rw [modPort_modPort]
  cases h : (s.port p).state <;> simp_all [PState.isAlive] <;> rfl

theorem replacementTaken_port :
    (replacementTaken p list more s).port p =
      ({ s.port p with replacements := more } : Port).profileReplaced list s.cadence.beat := by
  rw [replacementTaken, takeReplacement_port, port_modPort_self]; rfl

/-- A port on its way out of READY, or back to it, and a READY port with a phrase in flight, send the list later
(R86, R88). -/
theorem replacementTaken_later
    (h : (s.port p).state = .pausing ∨ (s.port p).state = .paused ∨ (s.port p).state = .resuming ∨
      (s.port p).state = .stopping ∨ (s.port p).state = .ready ∧ (s.port p).lane.phrase?.isSome = true) :
    replacementTaken p list more s = s.modPort p (Port.listDue list more) := by
  rcases h with h | h | h | h | ⟨h, hph⟩
  case inr.inr.inr.inr =>
    simp only [replacementTaken, takeReplacement, modPort_modPort, port_modPort_self, h, hph, if_true]
    rfl
  all_goals
    simp only [replacementTaken, takeReplacement, modPort_modPort, port_modPort_self, h]
    rfl

/-- A SET in flight ends first (R87). -/
theorem replacementTaken_setInFlight (hst : (s.port p).state = .tuning) (hset : (s.port p).lane.carries .set = true) :
    replacementTaken p list more s =
      s.modPort p fun x => { x.listDue list more with restart := true } := by
  simp only [replacementTaken, takeReplacement, modPort_modPort, port_modPort_self, hst, hset, if_true]
  rfl

/-- The port in TUNING at the first entry of the list stored (R87). -/
def Port.begunAnew (list : Profile) (more : List Profile) (x : Port) : Port :=
  { x.listDue list more with cursor := 0 }

/-- With no SET in flight TUNING begins anew, or ends where the list is empty (R87). -/
theorem replacementTaken_tuning (hst : (s.port p).state = .tuning) (hset : (s.port p).lane.carries .set = false) :
    replacementTaken p list more s =
      grantPoint p
        (if list = [] then finishTuning p (s.modPort p (Port.begunAnew list more))
        else raiseClaim p (s.modPort p (Port.begunAnew list more))) := by
  simp only [replacementTaken, takeReplacement, modPort_modPort, port_modPort_self, hst, hset, Bool.false_eq_true,
    if_false]
  rfl

/-- A READY port with no phrase in flight enters TUNING (R86). -/
theorem replacementTaken_ready (hst : (s.port p).state = .ready) (hph : (s.port p).lane.phrase?.isSome = false) :
    replacementTaken p list more s =
      grantPoint p (enterTuning p (s.modPort p (Port.listDue list more))) := by
  simp only [replacementTaken, takeReplacement, modPort_modPort, port_modPort_self, hst, hph, Bool.false_eq_true,
    if_false]
  rfl

end Body

/-! ## The event -/

section Event

variable {t : State} {list : Profile} {more : List Profile}

theorem profileReplacement_ends (h : s.settled = true) (hr : (s.port p).replacements = list :: more) :
    ∃ t, exec (.profileReplacement p) s = .next t ∧ PortEventEnds p s (replacementTaken p list more s.quiet) t ∧
      PortAndOutcomes p s t := by
  obtain ⟨t, ht, hends⟩ := portEvent_ends_of_run (p := p) (body := replacementTaken p list more) h
    (PortRun.refl.mod.takeReplacement list)
  exact ⟨t, (exec_profileReplacement hr).trans ht, hends⟩

theorem entryAfter_quiet_modPort {f : Port → Port} (o : OutcomeCode) (e : EntryNo)
    (hf : (f (s.port p)).waiters = (s.port p).waiters) :
    (s.quiet.modPort p f).entryAfter p o e = s.entryAfter p o e :=
  entryAfter_congr o e (by rw [port_modPort_self]; exact hf) rfl

/-- The list is stored, and nothing else is done yet. -/
theorem replacement_stored {f : Port → Port} (he : PortEventEnds p s (replacementTaken p list more s.quiet) t)
    (hframe : PortAndOutcomes p s t) (hbody : replacementTaken p list more s.quiet = s.quiet.modPort p f) :
    OnlyPort p s t ∧ RegsKept s t ∧ t.port p = f (s.port p) := by
  rw [hbody] at he
  exact ⟨hframe.onlyPort (he.board ⟨rfl, rfl⟩), he.regs, he.port.trans (port_modPort_self _ _ _)⟩

/-- TUNING begun anew with a list to send (R87). -/
theorem replacement_beginsAnew (he : PortEventEnds p s (replacementTaken p list more s.quiet) t)
    (hframe : PortAndOutcomes p s t) (hst : (s.port p).state = .tuning) (hset : (s.port p).lane.carries .set = false)
    (hlist : list ≠ []) :
    OnlyPort p s t ∧ RegsKept s t ∧ t.port p = ((s.port p).begunAnew list more).claimRaised.granted := by
  rw [replacementTaken_tuning (s := s.quiet) hst hset, if_neg hlist] at he
  have hrun : PortRun p false s.quiet (raiseClaim p (s.quiet.modPort p (Port.begunAnew list more))) :=
    PortRun.refl.mod.raiseClaim
  refine ⟨hframe.onlyPort (he.board ⟨hrun.grantPoint.walker, hrun.grantPoint.inflight⟩), ?_, ?_⟩
  · exact he.regs.trans (grantPoint_regs _ _)
  · rw [he.port, grantPoint_port, raiseClaim_port, port_modPort_self]; rfl

/-- The claim of the list waits for the phrase or the reception on the lane (R61, R62). -/
theorem begunAnew_granted_of_busy {x : Port} (hst : x.state = .tuning) (hl : x.lane ≠ .free) :
    (x.begunAnew list more).claimRaised.granted = { x.begunAnew list more with stepClaim := true } := by
  have hcall : (stepCall (x.begunAnew list more).state (x.begunAnew list more).target).isSome = true := by
    rw [show (x.begunAnew list more).state = .tuning from hst, stepCall_tuning_isSome]
  rw [granted_of_not_free (by exact hl), Port.claimRaised, hcall, Bool.or_true]

/-- TUNING entered from READY with a list to send (R86). -/
theorem replacement_retunes (he : PortEventEnds p s (replacementTaken p list more s.quiet) t)
    (hframe : PortAndOutcomes p s t) (hst : (s.port p).state = .ready)
    (hph : (s.port p).lane.phrase?.isSome = false) (hlist : list ≠ []) :
    OnlyPort p s t ∧ CausesSet 0x02 s t ∧
      t.port p = (((s.port p).listDue list more).tuningEntered s.cadence.beat).granted := by
  rw [replacementTaken_ready (s := s.quiet) hst hph] at he
  have hdue : (s.quiet.modPort p (Port.listDue list more)).port p = (s.port p).listDue list more :=
    port_modPort_self _ _ _
  have hrun : PortRun p false s.quiet (enterTuning p (s.quiet.modPort p (Port.listDue list more))) :=
    PortRun.refl.mod.enterTuning_of_profile (by rw [hdue]; exact hlist)
  refine ⟨hframe.onlyPort (he.board ⟨hrun.grantPoint.walker, hrun.grantPoint.inflight⟩), ?_, ?_⟩
  · rw [causesSet_iff, he.regs, grantPoint_regs, enterTuning_regs, hdue,
      if_neg fun ⟨htuning, _⟩ => absurd (hst.symm.trans htuning) PState.noConfusion]
    rfl
  · rw [he.port, grantPoint_port, enterTuning_port, hdue]; rfl

/-- A list of no entries has taken the port to READY: the waiters of target AWAKE have their REACHED (R14, R87; log
entry 41). -/
def ReadiedByReplacement (p : PortNo) (s t : State) : Prop :=
  CausesSet 0x02 s t ∧ Port.InReady (s.port p) (t.port p) s.cadence.beat ∧
    if (s.port p).target = .awake then WaitersReceive p .reached s t else t.inflight = s.inflight

/-- TUNING ended by a list of no entries (R87). -/
theorem replacement_endsTuning (he : PortEventEnds p s (replacementTaken p [] more s.quiet) t)
    (hst : (s.port p).state = .tuning) (hset : (s.port p).lane.carries .set = false) :
    ReadiedByReplacement p s t := by
  rw [replacementTaken_tuning (s := s.quiet) hst hset, if_pos rfl] at he
  have hnew : (s.quiet.modPort p (Port.begunAnew [] more)).port p = (s.port p).begunAnew [] more :=
    port_modPort_self _ _ _
  have hne : ((s.port p).begunAnew [] more).state ≠ .ready := fun h => absurd (hst.symm.trans h) PState.noConfusion
  refine ⟨?_, ?_, outcomes_of_entries fun e => ?_⟩
  · rw [causesSet_iff, he.regs, grantPoint_regs, finishTuning_regs, hnew, if_neg hne]
    rfl
  · obtain ⟨h₁, h₂, h₃, h₄, h₅⟩ := (Port.tuned_inReady s.cadence.beat hne).granted
    rw [he.port, grantPoint_port, finishTuning_port, hnew]
    exact ⟨h₁, h₂, h₃, h₄, h₅⟩
  · rw [he.entry, grantPoint_entry, finishTuning_entry, hnew, entryAfter_quiet_modPort _ _ rfl]
    rfl

/-- TUNING entered from READY and left again for a list of no entries (R86). -/
theorem replacement_readiesAgain (he : PortEventEnds p s (replacementTaken p [] more s.quiet) t)
    (hst : (s.port p).state = .ready) (hph : (s.port p).lane.phrase?.isSome = false) :
    ReadiedByReplacement p s t := by
  rw [replacementTaken_ready (s := s.quiet) hst hph] at he
  have hdue : (s.quiet.modPort p (Port.listDue [] more)).port p = (s.port p).listDue [] more :=
    port_modPort_self _ _ _
  refine ⟨?_, ?_, outcomes_of_entries fun e => ?_⟩
  · rw [causesSet_iff, he.regs, grantPoint_regs, enterTuning_regs, hdue, if_neg fun ⟨_, hp⟩ => hp rfl]
    rfl
  · obtain ⟨h₁, h₂, h₃, h₄, h₅⟩ :=
      (Port.tuningEntered_inReady (x := (s.port p).listDue [] more) s.cadence.beat hst rfl).granted
    rw [he.port, grantPoint_port, enterTuning_port, hdue]
    exact ⟨h₁, h₂, h₃, h₄, h₅⟩
  · rw [he.entry, grantPoint_entry, enterTuning_entry, hdue, entryAfter_quiet_modPort _ _ rfl]
    exact if_congr (and_iff_right rfl) rfl rfl

end Event

/-- Settles O46, by the port's state, its lane and whether the list has entries. -/
theorem replacementsActByState : Obligations.ReplacementsActByState := by
  intro p list more s h _ hr x y
  obtain ⟨t, ht, he, hframe⟩ := profileReplacement_ends h hr
  have hwish : (t.port p).wish = (list, x.target, x.stamp) := by
    rw [he.port, replacementTaken_port, Port.profileReplaced_wish]; rfl
  simp only [Port.wish, Prod.mk.injEq] at hwish
  obtain ⟨hprofile, htarget, hstamp⟩ := hwish
  have hlater := fun hst => replacement_stored he hframe (replacementTaken_later hst)
  refine ⟨t, ht, hframe, hprofile, htarget, hstamp, fun ⟨hna, hst⟩ => ?_, fun hst => ?_, fun hst hset => ?_,
    fun hst hset hl hlist => ?_, fun e es hst hl hk hlist => ?_, fun hst hset hlist => ?_, fun hst hph => ?_,
    fun e es hst hl hk hlist => ?_, fun hst hph hl hlist => ?_, fun hst hph hlist => ?_⟩
  · exact replacement_stored he hframe (replacementTaken_idle hna hst)
  · exact hlater (by tauto)
  · exact replacement_stored he hframe (replacementTaken_setInFlight hst hset)
  · obtain ⟨honly, hregs, hport⟩ := replacement_beginsAnew he hframe hst hset hlist
    exact ⟨honly, hregs, hport.trans (begunAnew_granted_of_busy hst hl)⟩
  · obtain ⟨honly, hregs, hport⟩ := replacement_beginsAnew he hframe hst
      (by rw [show (s.port p).lane = .free from hl]; rfl) (by rw [hlist]; exact List.cons_ne_nil e es)
    refine ⟨honly, hregs, hport.trans ?_⟩
    exact claimRaised_granted_tuning (x := (s.port p).begunAnew list more) (e := e) hst hl hk
      (by simp [Port.begunAnew, Port.listDue, Port.listStored, hlist])
  · subst hlist
    obtain ⟨hcauses, hin, hout⟩ := replacement_endsTuning he hst hset
    exact ⟨hcauses, hin.state, hin.stale, hin.cursor, hin.silence, hout⟩
  · exact hlater (by tauto)
  · obtain ⟨honly, hcauses, hport⟩ := replacement_retunes he hframe hst
      (by rw [show (s.port p).lane = .free from hl]; rfl) (by rw [hlist]; exact List.cons_ne_nil e es)
    rw [Port.tuningEntered_granted_of_ready (x := (s.port p).listDue list more) _ hst hl hk hlist] at hport
    exact ⟨honly, hcauses, hport⟩
  · obtain ⟨honly, hcauses, hport⟩ := replacement_retunes he hframe hst hph hlist
    rw [Port.tuningEntered_of_ready (x := (s.port p).listDue list more) _ hst hlist,
      granted_of_not_free (by exact hl)] at hport
    rw [hport]
    exact ⟨honly, hcauses, rfl, rfl, rfl, rfl, rfl⟩
  · subst hlist
    obtain ⟨hcauses, hin, hout⟩ := replacement_readiesAgain he hst hph
    exact ⟨hcauses, hin.state, hin.stale, hin.stateBeat, hin.silence, hout⟩

end Sys2Proof.Machine
end

section
/-! SET_PROFILE (O45): the list read for the request, judged, and handed to its ports. -/

set_option Elab.async false

namespace Sys2Proof.Machine

variable {s : State}

/-! ## Profile lists (Table 10-4, R79) -/

/-- The entry at a place of a profile list, 4 bytes an entry. -/
def listEntry (data : List Byte) (i : Nat) : ProfileEntry :=
  { slot := data.getD (4 * i) 0, value := data.getD (4 * i + 3) 0 ++ data.getD (4 * i + 2) 0 }

theorem listEntry_cons (a b c d : Byte) (rest : List Byte) (i : Nat) :
    listEntry (a :: b :: c :: d :: rest) (i + 1) = listEntry rest i := by
  have hget : ∀ k, (a :: b :: c :: d :: rest).getD (4 * (i + 1) + k) 0 = rest.getD (4 * i + k) 0 := fun k => by
    rw [show 4 * (i + 1) + k = 4 * i + k + 4 by omega]; rfl
  rw [listEntry, hget 3, hget 2, ← Nat.add_zero (4 * (i + 1)), hget 0]; rfl

/-- A list of whole entries is parsed place by place. -/
theorem parseProfile_eq_map {n : Nat} {data : List Byte} (h : data.length = 4 * n) :
    parseProfile data = (List.range n).map (listEntry data) := by
  induction n generalizing data with
  | zero => rw [List.length_eq_zero_iff.1 h]; rfl
  | succ n ih =>
    match data, h with
    | a :: b :: c :: d :: rest, h =>
      have hrest : rest.length = 4 * n := by simp only [List.length_cons] at h; omega
      rw [parseProfile, ih hrest, List.range_succ_eq_map, List.map_cons, List.map_map]
      exact congrArg₂ _ rfl (List.map_congr_left fun i _ => (listEntry_cons a b c d rest i).symm)

theorem parseProfile_eq {n : Nat} {data : List Byte} {list : Profile} (hdata : data.length = 4 * n)
    (hlist : list.length = n) (h : ∀ i, i < n → list[i]? = some (listEntry data i)) : parseProfile data = list := by
  rw [parseProfile_eq_map hdata]
  refine List.ext_getElem (by simp [hlist]) fun i hi hi' => ?_
  have hentry := h i (hlist ▸ hi')
  rw [List.getElem?_eq_getElem hi', Option.some.injEq] at hentry
  rw [List.getElem_map, List.getElem_range, hentry]

theorem profileGood_iff (list : Profile) :
    profileGood list = true ↔ (∀ e ∈ list, e.slot.toNat ≤ 31) ∧ (list.map (·.slot)).Nodup := by
  simp [profileGood]

/-! ## The take's end (R121) -/

/-- Whether the writer has a write to begin depends on the writer and on the walker's state and board alone. -/
theorem beginSlotWrite_of_settled_congr {v : State} (h : s.settled = true) (hatt : s.walker.state.attached = true)
    (hboard : v.walker.board = s.walker.board) (hwriter : v.writer = s.writer) :
    (beginSlotWrite v).writer = s.writer := by
  rcases beginSlotWrite_writer v with hkept | ⟨x, rest, hposting, hcurrent, hrest, -, -⟩
  · rw [hkept, hwriter]
  · rw [hwriter] at hposting hcurrent
    have hno : v.walker.board = none := by
      by_contra hb
      rw [posting_nil_of_idle h hatt hcurrent (by rw [← hboard]; exact Option.isSome_iff_ne_none.2 hb)] at hposting
      cases hposting
    have hsame : beginSlotWrite v = v := by simp [beginSlotWrite, hno]
    rw [hsame, hwriter]

/-- A change of walker and ports alone, at an attached walker, leaves the Status Writer as it is. -/
theorem settle_writer_of_fetching {v : State} (h : s.settled = true) (hst : s.walker.state = .fetching)
    (hv : v.walker.state = .fetching) (hboard : v.walker.board = s.walker.board) (hwriter : v.writer = s.writer) :
    (settle v).writer = s.writer := by
  have hfinish : finishDetach v = v := by simp [finishDetach, hv]
  have hsilence : silenceWriter v = v := if_pos (by rw [hv]; rfl)
  rw [settle, hfinish, hsilence, beginAccess_writer]
  exact beginSlotWrite_of_settled_congr h (by rw [hst]; rfl) hboard hwriter

/-- A block write of a take, with the header write and the link read behind it, from the state `u` that the take's
effects have made of the held copy (R121). -/
theorem took_of_moveAnchor {c : FetchedCopy} {form : BlockForm} {u : State}
    (hw : u.walker = (copyHeld c s.quiet).walker) :
    Took c form [] [] s (settle (lookFromAnchor (moveAnchor c form u))) := by
  have hnow := settle_walkerNow (v := lookFromAnchor (moveAnchor c form u))
    (by rw [lookFromAnchor_moveAnchor]; rfl) (by rw [lookFromAnchor_moveAnchor]; exact WalkerState.noConfusion)
    (by rw [lookFromAnchor_moveAnchor]; simp [hw, copyHeld, endAccess])
  unfold Took
  unfold WalkerNow at hnow ⊢
  rw [hnow, lookFromAnchor_moveAnchor]
  simp [hw, copyHeld, endAccess, takeWrite, flagNotify]

/-- A take that gives no outcome and sets no cause has ended in `t`, when its effects have made `u` of the copy held. -/
structure TakeEnds (c : FetchedCopy) (form : BlockForm) (s u t : State) : Prop where
  rig : RigKept s t
  reader : t.reader = s.reader
  stampCounter : t.stampCounter = s.stampCounter
  inflight : t.inflight = s.inflight
  regs : RegsKept s t
  writer : t.writer = s.writer
  ports : t.ports = u.ports
  took : Took c form [] [] s t

/-- A take whose effects touch ports alone. -/
theorem takeEnds_of_ports {c : FetchedCopy} {form : BlockForm} {u : State} (h : s.settled = true)
    (hst : s.walker.state = .fetching) (hu : u = { copyHeld c s.quiet with ports := u.ports }) :
    TakeEnds c form s u (settle (lookFromAnchor (moveAnchor c form u))) := by
  have hregs : (settle (lookFromAnchor (moveAnchor c form u))).regs = u.regs := by
    rw [settle_regs_of_attached (by rw [lookFromAnchor_moveAnchor]; exact WalkerState.noConfusion),
      lookFromAnchor_moveAnchor]
    rfl
  have hwriter : (settle (lookFromAnchor (moveAnchor c form u))).writer = s.writer := by
    refine settle_writer_of_fetching h hst ?_ ?_ ?_ <;> rw [lookFromAnchor_moveAnchor, hu] <;> rfl
  exact
    { rig := settle_rigKept (by
        rw [lookFromAnchor_moveAnchor, hu]; exact ⟨rfl, ⟨rfl, rfl⟩, ⟨rfl, rfl, rfl⟩, rfl, rfl⟩)
      reader := by rw [settle_reader, lookFromAnchor_moveAnchor, hu]; rfl
      stampCounter := by rw [settle_stampCounter, lookFromAnchor_moveAnchor, hu]; rfl
      inflight := by rw [settle_inflight, lookFromAnchor_moveAnchor, hu]; rfl
      regs := by rw [RegsKept, hregs, hu]; rfl
      writer := hwriter
      ports := by rw [settle_ports, lookFromAnchor_moveAnchor]; rfl
      took := took_of_moveAnchor (by rw [hu]) }

/-! ## The list handed to its ports (R91) -/

theorem storedOutcomes_get (ps : List PortNo) (o : Table OutcomeCode 16) (p : PortNo) :
    (ps.foldl (fun o q => o.set q .stored) o).get p = if p ∈ ps then .stored else o.get p := by
  induction ps generalizing o with
  | nil => rfl
  | cons q ps ih =>
    rw [List.foldl_cons, ih, Table.get_set]
    by_cases hp : p ∈ ps <;> by_cases hq : p = q <;> simp [hp, hq]

/-- The request has stored its list: every port it names has a replacement with it on its list and is answered
STORED. -/
def ListHanded (c : FetchedCopy) (list : Profile) (s t : State) : Prop :=
  RigKept s t ∧ t.reader = s.reader ∧ t.stampCounter = s.stampCounter ∧ t.inflight = s.inflight ∧
    RegsKept s t ∧ t.writer = s.writer ∧
    (∀ p, t.port p =
      { s.port p with
        replacements := (s.port p).replacements ++
          (if (fieldAt c.data 16 2).testBit p.val then [list] else []) }) ∧
    ∃ outs, Took c (.done outs) [] [] s t ∧
      ∀ p, outs.get p = if (fieldAt c.data 16 2).testBit p.val then .stored else .none

/-- The request has been refused, with nothing changed outside the board. -/
def ListRefused (c : FetchedCopy) (s t : State) : Prop :=
  OnlyBoard s t ∧ t.inflight = s.inflight ∧ RegsKept s t ∧ t.writer = s.writer ∧
    Took c (.refused .badProfile) [] [] s t

section Takes

variable {c : FetchedCopy} (h : s.settled = true) (hst : s.walker.state = .fetching)

include h hst

theorem storeProfile_hands (list : Profile) :
    ListHanded c list s (settle (storeProfile c list (copyHeld c s.quiet))) := by
  have hmask : ∀ p, p ∈ maskPorts (targetField c.data) ↔ (fieldAt c.data 16 2).testBit p.val = true :=
    mem_maskPorts _
  have he : TakeEnds c _ s _ (settle (storeProfile c list (copyHeld c s.quiet))) :=
    takeEnds_of_ports h hst (handReplacements_frame list (maskPorts (targetField c.data)) (copyHeld c s.quiet))
  refine ⟨he.rig, he.reader, he.stampCounter, he.inflight, he.regs, he.writer, fun p => ?_, _, he.took, fun p => ?_⟩
  · have hcount : List.replicate ((maskPorts (targetField c.data)).count p) list =
        if (fieldAt c.data 16 2).testBit p.val then [list] else [] := by
      rw [(maskPorts_nodup _).count]
      simp only [hmask]
      split <;> rfl
    rw [port_congr he.ports, handReplacements_port, hcount]
    rfl
  · rw [storedOutcomes_get]
    simp only [hmask, noOutcomes, Table.get_replicate]

theorem refuse_refuses : ListRefused c s (settle (refuse c .badProfile (copyHeld c s.quiet))) := by
  have he : TakeEnds c (.refused .badProfile) s (copyHeld c s.quiet)
      (settle (refuse c .badProfile (copyHeld c s.quiet))) := takeEnds_of_ports h hst rfl
  exact ⟨⟨he.rig, he.ports, he.reader, he.stampCounter⟩, he.inflight, he.regs, he.writer, he.took⟩

end Takes

/-! ## The block read (R90) -/

/-- A POSTED block of kind SET_PROFILE that passes the checks is taken as a SET_PROFILE, with a good list address
where it has entries (R90, R132). -/
theorem takeCopy_setProfile {a : Addr} {data : Table Byte 64} (hkind : numAt data 9 = 6)
    (hok : refusalOf data s = none) (u : State) :
    takeCopy { address := a, data := data } u = takeSetProfile { address := a, data := data } u ∧
      listBad data = false := by
  have hflags : badFlags .setProfile data = flagsBad data := by
    unfold badFlags flagsBad
    rw [hkind]
    rfl
  obtain ⟨hflagsOk, htargetOk, hlist⟩ :
      flagsBad data = false ∧ targetBad data s = false ∧ listBad data = false := by
    unfold refusalOf at hok
    simp only [hkind] at hok
    split_ifs at hok <;> simp_all
  have hmask : flagAt data 1 = false := by
    simp only [flagsBad, hkind, Bool.or_eq_false_iff] at hflagsOk
    obtain ⟨⟨-, hgroup⟩, -⟩ := hflagsOk
    simpa using hgroup
  have htarget : badTarget .setProfile data u = false := by
    unfold targetBad at htargetOk
    rw [hkind, hmask] at htargetOk
    unfold badTarget
    rw [show flagGroup data = false from hmask]
    exact htargetOk
  have hkindOf : kindOf data = some .setProfile := by
    unfold numAt at hkind
    simp [kindOf, hkind]
  refine ⟨?_, hlist⟩
  unfold takeCopy
  simp only [hkindOf, hflags, htarget, hflagsOk]
  simp [takeKind]

theorem leNat_lt (l : List Byte) : leNat l < 256 ^ l.length := by
  induction l with
  | nil => exact Nat.zero_lt_one
  | cons b l ih =>
    have hb : b.toNat < 256 := b.isLt
    rw [leNat, List.length_cons, Nat.pow_succ]
    omega

theorem fieldAt_lt (b : Table Byte 64) (off size : Nat) : fieldAt b off size < 256 ^ size :=
  (leNat_lt _).trans_le (Nat.pow_le_pow_right (by decide) (List.length_take_le _ _))

/-- The list address is the number its field spells. -/
theorem listAddress_toNat (b : Table Byte 64) : (listAddress b).toNat = fieldAt b 20 8 :=
  Nat.mod_eq_of_lt (fieldAt_lt b 20 8)

/-- A list that is not refused as the block is read has at most 12 entries, and a good address where it has any
(R90). -/
theorem listBad_false {b : Table Byte 64} (h : listBad b = false) :
    listCount b ≤ 12 ∧
      (listCount b ≠ 0 → ¬ (listAddress b = 0 ∨ (listAddress b).toNat % 4 ≠ 0)) := by
  have hzero : listAddress b = 0 ↔ fieldAt b 20 8 = 0 := by rw [← listAddress_toNat, BitVec.toNat_eq]; rfl
  have hcount : numAt b 28 = listCount b := rfl
  rw [hzero, listAddress_toNat]
  simp only [listBad, hcount, Bool.or_eq_false_iff, decide_eq_false_iff_not, Bool.and_eq_false_imp,
    decide_eq_true_eq, beq_eq_false_iff_ne, ne_eq, bne_eq_false_iff_eq] at h
  omega

theorem takeSetProfile_empty {c : FetchedCopy} (h : numAt c.data 28 = 0) (u : State) :
    takeSetProfile c u = storeProfile c [] u := by
  have hcount : listCount c.data = 0 := h
  simp [takeSetProfile, hcount]

/-- The walker holds the copy while its list is read (R90). -/
def awaitList (c : FetchedCopy) (s : State) : State :=
  (s.setWalker { s.walker with state := .fetching, copy := some c }).place
    (.listRead (listAddress c.data) (listCount c.data))

theorem takeSetProfile_reads {c : FetchedCopy} (hbad : listBad c.data = false) (h : listCount c.data ≠ 0)
    (u : State) : takeSetProfile c u = awaitList c u := by
  obtain ⟨hcount, haddress⟩ := listBad_false hbad
  unfold takeSetProfile
  dsimp only
  rw [if_neg (Nat.not_lt.2 hcount), if_neg h, if_neg (haddress h)]
  rfl

/-- The list read joins the access list, and nothing else changes (R90). -/
theorem awaitList_ends (c : FetchedCopy) (h : s.settled = true) (hst : s.walker.state = .fetching) :
    let t := settle (awaitList c (copyHeld c s.quiet))
    OnlyBoard s t ∧ t.inflight = s.inflight ∧ RegsKept s t ∧ t.writer = s.writer ∧
      WalkerNow { s.walker with copy := some c }
        (s.walker.accesses ++ [.listRead (listAddress c.data) (listCount c.data)]) t := by
  intro t
  have hregs : t.regs = s.regs := settle_regs_of_attached WalkerState.noConfusion
  have hwriter : t.writer = s.writer := settle_writer_of_fetching h hst rfl rfl rfl
  have hnow := settle_walkerNow (v := awaitList c (copyHeld c s.quiet)) rfl WalkerState.noConfusion rfl
  have hwalker : (awaitList c (copyHeld c s.quiet)).walker =
      { s.walker with
        copy := some c, current := none
        accesses := s.walker.accesses ++ [.listRead (listAddress c.data) (listCount c.data)] } := by
    dsimp only
    rw [hst]; rfl
  rw [hwalker] at hnow
  exact ⟨⟨settle_rigKept ⟨rfl, ⟨rfl, rfl⟩, ⟨rfl, rfl, rfl⟩, rfl, rfl⟩, settle_ports _, settle_reader _,
    settle_stampCounter _⟩, settle_inflight _, hregs, hwriter, hnow⟩

/-! ## The list read (R90) -/

theorem exec_profileListRead {b : BusAccess} {a : Addr} {n : Nat} {c : FetchedCopy} {data : List Byte}
    (hst : s.walker.state = .fetching) (hr : s.reading b (.listRead a n)) (hcopy : s.walker.copy = some c)
    (hlen : data.length = 4 * n) :
    exec (.profileListReadComplete data) s = .next (settle (takeProfileList c data (copyHeld c s.quiet))) := by
  obtain ⟨hcur, hacc, hhalt⟩ := hr
  have hcounts : readCounts s.quiet b = true := by simp [readCounts, hhalt, hst]
  have hheld : endAccess s.quiet = copyHeld c s.quiet := by
    rw [copyHeld, ← hcopy]; rfl
  have hread : listRead data (endAccess s.quiet) = takeProfileList c data (copyHeld c s.quiet) := by
    unfold listRead
    rw [hheld]
    rfl
  rw [← hread]
  change execProfileListReadComplete data s = _
  unfold execProfileListReadComplete
  rw [hcur]
  dsimp only
  rw [hacc]
  simp only [event_eq, hlen, hcounts, if_true]

/-- Settles O45: a list of no entries is stored as its block is read, any other is judged as it has been read
itself. -/
theorem profileRequestsReadAndStoreTheirList : Obligations.ProfileRequestsReadAndStoreTheirList := by
  refine ⟨fun b a data s h hst hread hposted hkind hok => ?_,
    fun b a n c list data s h hst hread hcopy hdata hlist hentries => ?_⟩
  · have hexec := exec_blockRead_posted hst hread hposted
    obtain ⟨htake, hbad⟩ := takeCopy_setProfile (a := a) hkind hok (copyHeld { address := a, data := data } s.quiet)
    rw [htake] at hexec
    refine ⟨_, hexec, fun hcount => ?_, fun hcount => ?_⟩
    · rw [takeSetProfile_empty hcount]
      exact storeProfile_hands h hst []
    · rw [takeSetProfile_reads (c := { address := a, data := data }) hbad hcount]
      exact awaitList_ends _ h hst
  · refine ⟨_, exec_profileListRead hst hread hcopy hdata, fun hslots hnodup => ?_, fun hno => ?_⟩ <;>
      rw [takeProfileList, parseProfile_eq hdata hlist hentries]
    · rw [if_pos ((profileGood_iff list).2 ⟨hslots, hnodup⟩)]
      exact storeProfile_hands h hst list
    · rw [if_neg fun hgood => hno ((profileGood_iff list).1 hgood)]
      exact refuse_refuses h hst

end Sys2Proof.Machine
end

section
/-! What a serving check does to governor and ports, and how an event of governor or monitor ends (R100, R101). -/

set_option Elab.async false

namespace Sys2Proof.Machine

variable {p : PortNo} {g : Governor} {n : Nat} {s t u v : State}

/-! ## A serving check, claim by claim (R100, R101) -/

/-- The governor after its head claim has been served (R100). -/
def Governor.headServed (g : Governor) (p : PortNo) (rest : List PortNo) : Governor :=
  { g with
    queue := rest, holders := g.holders.set p true, history := g.history ++ [g.settings.windowMs] }

theorem serveHead_governor (p : PortNo) (rest : List PortNo) (s : State) :
    (serveHead p rest s).governor = s.governor.headServed p rest := rfl

theorem serveHead_fromGovernor (p : PortNo) (rest : List PortNo) (s : State) (q : PortNo) :
    ((serveHead p rest s).port q).fromGovernor =
      (s.port q).fromGovernor ++ List.replicate ([p].count q) PortMsg.grant := by
  simp only [serveHead, State.tellPort, port_modPort, port_setGovernor]
  by_cases hq : q = p
  · simp [hq]
  · simp [hq, Ne.symm hq]

theorem afterServing_zero (g : Governor) : g.afterServing 0 = g := by simp [Governor.afterServing]

/-- Serving one claim more serves the head first. -/
theorem afterServing_succ {rest : List PortNo} (hq : g.queue = p :: rest) (n : Nat) :
    g.afterServing (n + 1) = (g.headServed p rest).afterServing n := by
  simp [Governor.afterServing, Governor.headServed, hq, Nat.add_min_add_right, List.replicate_succ]

/-- Where no claim can be served none is. -/
theorem served_none (h : s.governor.queue = [] ∨ s.governor.canServe = false) : Served s.governor 0 s s := by
  refine ⟨Nat.zero_le _, (afterServing_zero _).symm, fun m hm => absurd hm m.not_lt_zero, ?_, by simp⟩
  rw [afterServing_zero]
  exact h.imp_left fun hq => by rw [hq]; rfl

/-- The head claim served, and then `n` more. -/
theorem served_head {rest : List PortNo} (hq : s.governor.queue = p :: rest) (hc : s.governor.canServe = true)
    (h : Served (s.governor.headServed p rest) n (serveHead p rest s) t) : Served s.governor (n + 1) s t := by
  obtain ⟨hle, hgov, hcould, hdone, hgrants⟩ := h
  refine ⟨?_, ?_, fun m hm => ?_, ?_, fun q => ?_⟩
  · rw [hq]; exact Nat.succ_le_succ hle
  · rw [afterServing_succ hq]; exact hgov
  · cases m with
    | zero => rw [afterServing_zero]; exact hc
    | succ m => rw [afterServing_succ hq]; exact hcould m (Nat.lt_of_succ_lt_succ hm)
  · rw [afterServing_succ hq, hq]
    exact hdone.imp_left fun hlast => congrArg Nat.succ hlast
  · rw [hgrants, serveHead_fromGovernor, List.append_assoc, List.replicate_append_replicate, ← List.count_append, hq]
    rfl

theorem serveUpTo_served (k : Nat) (s : State) (hk : s.governor.queue.length = k) :
    ∃ n, Served s.governor n s (serveUpTo k s) := by
  induction k generalizing s with
  | zero => exact ⟨0, served_none (.inl (List.length_eq_zero_iff.1 hk))⟩
  | succ k ih =>
    unfold serveUpTo
    split <;> rename_i hq
    · exact ⟨0, served_none (.inl hq)⟩
    · rename_i p rest
      split <;> rename_i hc
      · rw [hq] at hk
        obtain ⟨n, hn⟩ := ih (serveHead p rest s) (Nat.succ.inj hk)
        exact ⟨n + 1, served_head hq hc hn⟩
      · exact ⟨0, served_none (.inr (Bool.eq_false_of_not_eq_true hc))⟩

/-- A serving check serves head claims until none is left or a condition fails (R101). -/
theorem servingCheck_served (s : State) : ∃ n, Served s.governor n s (servingCheck s) := serveUpTo_served _ s rfl

/-- A check at a head claim that can be served serves it. -/
theorem one_le_of_served {rest : List PortNo} (h : Served g n s t) (hq : g.queue = p :: rest)
    (hc : g.canServe = true) : 1 ≤ n := by
  obtain ⟨-, -, -, hdone, -⟩ := h
  rcases Nat.eq_zero_or_pos n with rfl | hn
  · rw [afterServing_zero, hc, hq] at hdone
    simp at hdone
  · exact hn

/-- What a check has served shows in the ports and in the governor alone. -/
theorem Served.congr (h : Served g n s t) (hs : u.ports = s.ports) (hg : v.governor = t.governor)
    (hports : v.ports = t.ports) : Served g n u v := by
  obtain ⟨hle, hgov, hcould, hdone, hgrants⟩ := h
  exact ⟨hle, hg.trans hgov, hcould, hdone, fun q => by rw [port_congr hports, port_congr hs]; exact hgrants q⟩

/-! ## How an event of the governor ends -/

theorem mem_post (s : State) (x : Slot) : x ∈ (s.post x).writer.posting := by
  by_cases hx : x ∈ s.writer.posting <;> simp [State.post, hx]

theorem post_writer_congr (h : u.writer = s.writer) (x : Slot) : (u.post x).writer = (s.post x).writer := by
  unfold State.post
  rw [h]
  split <;> simp [h]

theorem post_writer (s : State) (x : Slot) :
    (s.post x).writer = s.writer ∨
      (s.post x).writer = { s.writer with posting := s.writer.posting ++ [x] } :=
  (post_eq s x).imp (fun h => by rw [h]) fun h => by rw [h]; rfl

/-- The body of an event of governor or monitor has made `v` of the part: it leaves every block alone but these two,
the ports and the Status Writer, in which it posts the governor's slot or nothing. -/
structure Governs (s v : State) : Prop where
  frame : v =
    { s with acts := v.acts, governor := v.governor, monitor := v.monitor, ports := v.ports, writer := v.writer }
  writer : v.writer = s.writer ∨ v.writer = (s.post .governor).writer

/-- An event with such a body has ended in `t`. -/
structure GovernsEnds (s v t : State) : Prop where
  pending : t.pending = s.pending
  clock : ClockAndLinesKept s t
  groups : GroupsKept s t
  reader : t.reader = s.reader
  stampCounter : t.stampCounter = s.stampCounter
  board : BoardKept s t
  regs : RegsKept s t
  slots : OtherSlotsKept .governor s t
  governor : t.governor = v.governor
  monitor : t.monitor = v.monitor
  ports : t.ports = v.ports
  unposted : v.writer = s.writer → t.writer = s.writer
  posted : v.writer = (s.post .governor).writer → PostedWhileAttached .governor s t

theorem Governs.ends (hv : Governs s v) (h : s.settled = true) : GovernsEnds s v (settle v) := by
  obtain ⟨hframe, hwriter⟩ := hv
  have hwalker : v.walker = s.walker := by rw [hframe]
  have hinflight : v.inflight = s.inflight := by rw [hframe]
  have hposting : v.writer = s.writer ∨ v.writer = { s.writer with posting := s.writer.posting ++ [.governor] } :=
    hwriter.elim .inl fun hw => hw ▸ post_writer s .governor
  obtain ⟨hboard, hregs, hentries⟩ := settle_of_settled h hwalker hinflight
  exact
    { pending := by rw [settle_pending, hframe]
      clock := ⟨by rw [settle_cadence, hframe], by rw [settle_lines, hframe]⟩
      groups := ⟨by rw [settle_groups, hframe], by rw [settle_pool, hframe], by rw [settle_bindings, hframe]⟩
      reader := by rw [settle_reader, hframe]
      stampCounter := by rw [settle_stampCounter, hframe]
      board := ⟨hboard, hentries⟩
      regs := by rw [RegsKept, hregs, hframe]
      slots := onlySlot_of_settled h hwalker hinflight .governor hposting
      governor := settle_governor v
      monitor := settle_monitor v
      ports := settle_ports v
      unposted := settle_writer_kept (.of_boardKept ⟨hwalker, hinflight⟩) h
      posted := fun hw =>
        posted_of_settled h hwalker hinflight .governor (by rw [hw]; exact mem_post s .governor) hposting }

/-- An event that leaves the monitor alone, and of each port all but its messages, is one of the governor. -/
theorem GovernsEnds.governorEvent (h : GovernsEnds s v t) (hmonitor : v.monitor = s.monitor) (hmail : MailOnly s v) :
    GovernorEvent s t := by
  refine ⟨h.pending, h.clock, h.groups, h.monitor.trans hmonitor, h.reader, h.stampCounter, h.board, h.regs, h.slots,
    fun q => ?_⟩
  obtain ⟨m, f, hq⟩ := hmail q
  rw [port_congr h.ports, hq]

theorem governed_writer (hwriter : u.writer = s.writer) (g : Governor) :
    ((u.setGovernor g).post .governor).writer = (s.post .governor).writer :=
  post_writer_congr (u := u.setGovernor g) hwriter .governor

/-- The governor is changed and its slot posted (R178). -/
theorem Governs.govern (hu : Governs s u) (hwriter : u.writer = s.writer) (g : Governor) :
    Governs s ((u.setGovernor g).post .governor) where
  frame := by
    rcases post_eq (u.setGovernor g) .governor with h | h <;> rw [h, hu.frame] <;> rfl
  writer := .inr (governed_writer hwriter g)

theorem servingCheck_writer (s : State) : (servingCheck s).writer = s.writer := by rw [servingCheck_frame]

theorem servingCheck_monitor (s : State) : (servingCheck s).monitor = s.monitor := by rw [servingCheck_frame]

/-- A serving check follows. -/
theorem Governs.serve (hu : Governs s u) : Governs s (servingCheck u) where
  frame := by rw [servingCheck_frame, hu.frame]
  writer := by rw [servingCheck_writer]; exact hu.writer

/-- Serving sends grants, and nothing else, to ports. -/
theorem MailOnly.serve (h : MailOnly s u) : MailOnly s (servingCheck u) := fun q => by
  obtain ⟨m, f, hq⟩ := h q
  obtain ⟨k, hk⟩ := servingCheck_port u q
  exact ⟨m, _, hk.trans (by rw [hq])⟩

theorem servingCheck_toGovernor (s : State) (q : PortNo) :
    ((servingCheck s).port q).toGovernor = (s.port q).toGovernor := by
  obtain ⟨k, hk⟩ := servingCheck_port s q
  rw [hk]

/-- An event has ended in `t` that made `g` of the governor, with the ports as in `u`, and then a serving check. -/
structure ServingEnds (g : Governor) (s u t : State) : Prop where
  event : GovernorEvent s t
  posted : PostedWhileAttached .governor s t
  served : ∃ n, Served g n u t
  toGovernor : ∀ q, (t.port q).toGovernor = (u.port q).toGovernor

theorem serving_ends (h : s.settled = true) (hu : Governs s u) (hwriter : u.writer = s.writer)
    (hmonitor : u.monitor = s.monitor) (hmail : MailOnly s u) (g : Governor) :
    ServingEnds g s u (settle (servingCheck ((u.setGovernor g).post .governor))) := by
  have hgoverned := hu.govern hwriter g
  have he := hgoverned.serve.ends h
  have hports : ((u.setGovernor g).post .governor).ports = u.ports := by simp
  obtain ⟨n, hn⟩ := servingCheck_served ((u.setGovernor g).post .governor)
  rw [post_governor, setGovernor_governor] at hn
  exact
    { event := he.governorEvent (by simp [servingCheck_monitor, hmonitor])
        (MailOnly.serve fun q => by rw [port_congr hports]; exact hmail q)
      posted := he.posted ((servingCheck_writer _).trans (governed_writer hwriter g))
      served := ⟨n, hn.congr hports.symm he.governor he.ports⟩
      toGovernor := fun q => by rw [port_congr he.ports, servingCheck_toGovernor, port_congr hports] }

end Sys2Proof.Machine
end

section
/-! The governor's events: claims, withdrawals, releases, expiries and trips (O28, O29, O30, O32, O34). -/

set_option Elab.async false

namespace Sys2Proof.Machine

variable {p : PortNo} {s : State}

/-! ## A message taken (R95) -/

/-- The part once the governor has taken the oldest message of port `p`, the messages of `rest` still waiting. -/
def messageTaken (p : PortNo) (rest : List GovMsg) (s : State) : State :=
  s.modPort p fun x => { x with toGovernor := rest }

theorem takeMessage_eq {m : GovMsg} {rest : List GovMsg} (hm : (s.port p).toGovernor = m :: rest) :
    takeMessage p s = messageTaken p rest s := by
  simp [takeMessage, messageTaken, State.modPort, hm]

theorem messageTaken_governs (p : PortNo) (rest : List GovMsg) (s : State) :
    Governs s (messageTaken p rest s.quiet) := ⟨rfl, .inl rfl⟩

theorem messageTaken_writer (p : PortNo) (rest : List GovMsg) (s : State) :
    (messageTaken p rest s.quiet).writer = s.writer := rfl

theorem messageTaken_mail (p : PortNo) (rest : List GovMsg) (s : State) :
    MailOnly s (messageTaken p rest s.quiet) := fun q => by
  rw [messageTaken, port_modPort]
  split
  · subst_vars; exact ⟨rest, _, rfl⟩
  · exact ⟨_, _, rfl⟩

theorem messageTaken_toGovernor (p : PortNo) (rest : List GovMsg) (s : State) :
    ((messageTaken p rest s).port p).toGovernor = rest := by simp [messageTaken]

theorem messageTaken_toGovernor_ne {q : PortNo} (hq : q ≠ p) (rest : List GovMsg) (s : State) :
    ((messageTaken p rest s).port q).toGovernor = (s.port q).toGovernor := by
  rw [messageTaken, port_modPort_ne _ _ hq]

/-- A message that moves nothing is taken, and that is all. -/
theorem messageTaken_ends (h : s.settled = true) (p : PortNo) (rest : List GovMsg) :
    GovernsEnds s (messageTaken p rest s.quiet) (settle (messageTaken p rest s.quiet)) :=
  (messageTaken_governs p rest s).ends h

/-- A message that moves the governor to `g` is taken, and a serving check follows. -/
theorem messageTaken_serves (h : s.settled = true) (p : PortNo) (rest : List GovMsg) (g : Governor) :
    ServingEnds g s (messageTaken p rest s)
      (settle (servingCheck (((messageTaken p rest s.quiet).setGovernor g).post .governor))) :=
  have he := serving_ends h (messageTaken_governs p rest s) rfl rfl (messageTaken_mail p rest s) g
  -- the record of wire acts, emptied as the event begins, is no part of the ports
  { he with served := he.served }

/-! ## CLAIM (R96) -/

theorem exec_claim {rest : List GovMsg} (hm : (s.port p).toGovernor = .claim :: rest) :
    exec (.claim p) s = .next (settle (takeClaim p s.quiet)) := by
  simp [exec, execClaim, hm, event_eq]

/-- Settles O28: a claim that may join does so and a serving check follows; any other moves nothing. -/
theorem claimJoinsAndIsServed : Obligations.ClaimJoinsAndIsServed := by
  intro p rest s h hm
  have htake : takeMessage p s.quiet = messageTaken p rest s.quiet := takeMessage_eq hm
  by_cases hkept : p ∈ s.governor.queue ∨ s.governor.holders.get p = true
  · have he := messageTaken_ends h p rest
    rw [exec_claim hm, takeClaim_kept (s := s.quiet) hkept, htake]
    refine ⟨_, rfl, he.governorEvent rfl (messageTaken_mail p rest s), fun q hq => ?_, ?_, fun hq hh => ?_,
      fun _ => ⟨he.governor, he.unposted rfl, fun q => ?_⟩⟩
    · rw [port_congr he.ports, messageTaken_toGovernor_ne hq, port_quiet]
    · rw [port_congr he.ports, messageTaken_toGovernor]
    · simp [hq, hh] at hkept
    · rw [port_congr he.ports, messageTaken, port_modPort]
      split
      · subst_vars; rfl
      · rfl
  · obtain ⟨hq, hh⟩ : p ∉ s.governor.queue ∧ s.governor.holders.get p = false := by simpa using hkept
    have he := messageTaken_serves h p rest { s.governor with queue := s.governor.queue ++ [p] }
    rw [exec_claim hm, takeClaim_joins (s := s.quiet) hq hh, htake]
    exact ⟨_, rfl, he.event, fun q hq => (he.toGovernor q).trans (messageTaken_toGovernor_ne hq rest s),
      (he.toGovernor p).trans (messageTaken_toGovernor p rest s), fun _ _ => ⟨he.posted, he.served⟩,
      fun hk => absurd hk hkept⟩

/-! ## WITHDRAWAL (R97) -/

theorem exec_withdrawal {rest : List GovMsg} (hm : (s.port p).toGovernor = .withdrawal :: rest) :
    exec (.withdrawal p) s = .next (settle (takeWithdrawal p s.quiet)) := by
  simp [exec, execWithdrawal, hm, event_eq]

theorem takeWithdrawal_removes (h : p ∈ s.governor.queue) :
    takeWithdrawal p s =
      ((takeMessage p s).setGovernor { s.governor with queue := s.governor.queue.erase p }).post .governor :=
  if_pos h

theorem takeWithdrawal_kept (h : p ∉ s.governor.queue) : takeWithdrawal p s = takeMessage p s := if_neg h

/-- A claim removed leaves those before it and those behind it. -/
theorem erase_first {before behind : List PortNo} (h : p ∉ before) :
    (before ++ p :: behind).erase p = before ++ behind := by
  rw [List.erase_append_right _ h, List.erase_cons_head]

/-- A withdrawal taken removes the claim and serves nothing. -/
theorem withdrawal_ends {rest : List GovMsg} (h : s.settled = true)
    (hm : (s.port p).toGovernor = .withdrawal :: rest) :
    ∃ t, exec (.withdrawal p) s = .next t ∧ GovernorEvent s t ∧
      t.ports = (messageTaken p rest s).ports ∧
      (p ∈ s.governor.queue →
        t.governor = { s.governor with queue := s.governor.queue.erase p } ∧ PostedWhileAttached .governor s t) ∧
      (p ∉ s.governor.queue → t.governor = s.governor ∧ t.writer = s.writer) := by
  have htake : takeMessage p s.quiet = messageTaken p rest s.quiet := takeMessage_eq hm
  by_cases hq : p ∈ s.governor.queue
  · rw [exec_withdrawal hm, takeWithdrawal_removes (s := s.quiet) hq, htake]
    have he := ((messageTaken_governs p rest s).govern rfl
      { s.governor with queue := s.governor.queue.erase p }).ends h
    refine ⟨_, rfl, he.governorEvent (by simp [messageTaken]) fun q => ?_, he.ports.trans (by simp; rfl),
      fun _ => ⟨he.governor.trans (by simp), he.posted (governed_writer (messageTaken_writer p rest s) _)⟩,
      fun hn => absurd hq hn⟩
    rw [port_post, port_setGovernor]
    exact messageTaken_mail p rest s q
  · rw [exec_withdrawal hm, takeWithdrawal_kept (s := s.quiet) hq, htake]
    have he := messageTaken_ends h p rest
    exact ⟨_, rfl, he.governorEvent rfl (messageTaken_mail p rest s), he.ports, fun hp => absurd hp hq,
      fun _ => ⟨he.governor, he.unposted rfl⟩⟩

/-- Settles O29: the claim is erased where it stands, the grant taken outside QUEUED is O31's, and a head claim is
served at any check at which the conditions hold. -/
theorem withdrawalRemovesTheClaim : Obligations.WithdrawalRemovesTheClaim := by
  refine ⟨fun p rest s h hm => ?_, fun p rest s h hst hm => ?_, fun p behind s hq hc => ?_⟩
  · obtain ⟨t, ht, hevent, hports, hremoved, hkept⟩ := withdrawal_ends h hm
    refine ⟨t, ht, hevent, hports, fun before behind hq hbefore => ?_, hkept⟩
    have hmoved := hremoved (by rw [hq]; simp)
    rw [hq, erase_first hbefore] at hmoved
    exact hmoved
  · -- the class record does not matter outside QUEUED
    obtain ⟨t, ht, -, -, hport⟩ :=
      (grantPowersAQueuedPort p rest ⟨0, 0, 0, 0, 0, 0⟩ s h hm).2 hst
    exact ⟨t, ht, by rw [hport]⟩
  · obtain ⟨n, hn⟩ := servingCheck_served s
    exact ⟨n, one_le_of_served hn hq hc, hn⟩

/-! ## RELEASE and RETURNED_GRANT (R98, R102) -/

theorem exec_release {m : GovMsg} {c : Instr} {rest : List GovMsg}
    (hc : (m = .release ∧ c = .release p) ∨ (m = .returnedGrant ∧ c = .returnedGrant p))
    (hm : (s.port p).toGovernor = m :: rest) : exec c s = .next (settle (takeRelease p s.quiet)) := by
  rcases hc with ⟨rfl, rfl⟩ | ⟨rfl, rfl⟩
  · simp [exec, execRelease, hm, event_eq]
  · simp [exec, execReturnedGrant, hm, event_eq]

theorem takeRelease_frees (h : s.governor.holders.get p = true) :
    takeRelease p s =
      servingCheck (((takeMessage p s).setGovernor
        { s.governor with holders := s.governor.holders.set p false }).post .governor) :=
  if_pos h

theorem takeRelease_kept (h : s.governor.holders.get p = false) : takeRelease p s = takeMessage p s :=
  if_neg (by simp [takeMessage, h])

/-- Settles O30: a slot freed is followed by a serving check; the message of a port without one moves nothing. -/
theorem releaseFreesTheSlot : Obligations.ReleaseFreesTheSlot := by
  intro p rest m c s h hc hm
  have htake : takeMessage p s.quiet = messageTaken p rest s.quiet := takeMessage_eq hm
  by_cases hh : s.governor.holders.get p = true
  · have he := messageTaken_serves h p rest { s.governor with holders := s.governor.holders.set p false }
    obtain ⟨n, hn⟩ := he.served
    rw [exec_release hc hm, takeRelease_frees (s := s.quiet) hh, htake]
    exact ⟨_, n, rfl, he.event, fun _ => ⟨he.posted, hn⟩, fun hno => by rw [hh] at hno; cases hno⟩
  · have hno : s.governor.holders.get p = false := Bool.eq_false_of_not_eq_true hh
    have he := messageTaken_ends h p rest
    rw [exec_release hc hm, takeRelease_kept (s := s.quiet) hno, htake]
    exact ⟨_, 0, rfl, he.governorEvent rfl (messageTaken_mail p rest s), fun hyes => absurd hyes hh,
      fun _ => ⟨he.governor, he.ports, he.unposted rfl⟩⟩

/-! ## TRIP (R106) -/

theorem exec_trip (h : 0 < s.monitor.tripsHanded) : exec .trip s = .next (settle (takeTrip s.quiet)) := by
  simp [exec, execTrip, h, event_eq]

/-- Trip cuts reach the slot holders of the list, one for each place there. -/
theorem handCuts_port (ps : List PortNo) (s : State) (q : PortNo) :
    (handCuts ps s).port q =
      { s.port q with
        fromGovernor := (s.port q).fromGovernor ++
          (if s.governor.holders.get q = true then List.replicate (ps.count q) .tripCut else []) } := by
  induction ps generalizing s with
  | nil => simp [handCuts]
  | cons p ps ih =>
    rw [handCuts, ih]
    by_cases hq : q = p
    · subst hq
      by_cases hh : s.governor.holders.get q = true <;> simp [hh, State.tellPort, List.replicate_succ]
    · have hother : ((if s.governor.holders.get p = true then s.tellPort p .tripCut else s).port q) = s.port q := by
        split
        · exact port_modPort_ne _ _ hq
        · rfl
      have hgov : (if s.governor.holders.get p = true then s.tellPort p .tripCut else s).governor = s.governor := by
        split <;> rfl
      rw [hother, hgov, List.count_cons_of_ne (Ne.symm hq)]

theorem count_allPorts (q : PortNo) : allPorts.count q = 1 := by revert q; decide

/-- The governor after a trip: only its state has changed (R106). -/
def Governor.tripped (g : Governor) : Governor := { g with state := .holdoff g.settings.holdoffMs }

/-- A trip is one message fewer for the governor, the cuts, and the holdoff. -/
theorem takeTrip_eq (s : State) :
    takeTrip s =
      ((handCuts allPorts (s.setMonitor { s.monitor with tripsHanded := s.monitor.tripsHanded - 1 })).setGovernor
        s.governor.tripped).post .governor := by
  unfold takeTrip
  dsimp only
  rw [handCuts_frame]
  rfl

/-- Cuts handed to the ports of a list leave all but the ports alone. -/
theorem handCuts_governs (ps : List PortNo) (m : Monitor) (s : State) :
    Governs s (handCuts ps (s.quiet.setMonitor m)) ∧ (handCuts ps (s.quiet.setMonitor m)).writer = s.writer := by
  rw [handCuts_frame]
  exact ⟨⟨rfl, .inl rfl⟩, rfl⟩

theorem takeTrip_governs (s : State) : Governs s (takeTrip s.quiet) := by
  obtain ⟨hcuts, hwriter⟩ := handCuts_governs allPorts { s.monitor with tripsHanded := s.monitor.tripsHanded - 1 } s
  rw [takeTrip_eq]
  exact hcuts.govern hwriter _

theorem takeTrip_port (s : State) (q : PortNo) :
    (takeTrip s).port q =
      { s.port q with
        fromGovernor := (s.port q).fromGovernor ++ (if s.governor.holders.get q = true then [.tripCut] else []) } := by
  rw [takeTrip_eq, port_post, port_setGovernor, handCuts_port, count_allPorts]
  rfl

/-- Settles O34: the cuts go to the slot holders, and of the governor only its state changes. -/
theorem tripCutsTheSlotHolders : Obligations.TripCutsTheSlotHolders := by
  intro s h htrip
  have he := (takeTrip_governs s).ends h
  refine ⟨_, exec_trip htrip, fun q => ?_, he.governor.trans ?_, he.monitor.trans ?_, he.posted ?_, he.slots,
    he.pending, he.clock, he.groups, he.reader, he.stampCounter, he.board, he.regs⟩
  · rw [port_congr he.ports]; exact takeTrip_port s.quiet q
  · rw [takeTrip_eq]; simp [Governor.tripped]
  · rw [takeTrip_eq, handCuts_frame]; simp
  · rw [takeTrip_eq]
    exact governed_writer (handCuts_governs allPorts _ s).2 _

/-! ## GRANT_HISTORY_EXPIRY and HOLDOFF_EXPIRY (R99, R107) -/

theorem exec_grantHistoryExpiry {i : Fin 4} (h : s.governor.history[i.val]? = some 0) :
    exec (.grantHistoryExpiry i) s = .next (settle (expireHistory i.val s.quiet)) := by
  simp [exec, execGrantHistoryExpiry, h, event_eq]

theorem exec_holdoffExpiry (h : s.governor.state = .holdoff 0) :
    exec .holdoffExpiry s = .next (settle (endHoldoff s.quiet)) := by
  simp [exec, execHoldoffExpiry, h, event_eq]

/-- A holdoff that has not run down gives no expiry. -/
theorem exec_holdoffExpiry_none (h : s.governor.state ≠ .holdoff 0) : exec .holdoffExpiry s = .next s.quiet := by
  simp [exec, execHoldoffExpiry, h, noEvent_eq]

/-- An expiry that moves the governor to `g` ends with a serving check. -/
theorem expiry_serves (h : s.settled = true) (g : Governor) :
    ServingEnds g s s (settle (servingCheck ((s.quiet.setGovernor g).post .governor))) :=
  have he := serving_ends (u := s.quiet) h ⟨rfl, .inl rfl⟩ rfl rfl (mailOnly_of_ports rfl) g
  -- the record of wire acts, emptied as the event begins, is no part of the ports
  { he with served := he.served }

/-- The holdoff of a sound rig is never of length 0 (Table 6-1). -/
theorem holdoffMs_ne_zero (h : s.rigSound = true) : s.governor.settings.holdoffMs ≠ 0 := by
  obtain ⟨hgov, -, -⟩ := (rigSound_iff s).1 h
  obtain ⟨hset, -⟩ := (governorSound_iff _).1 hgov
  simp only [RigSettings.sound, inRange, Bool.and_eq_true, decide_eq_true_eq] at hset
  omega

/-- Settles O32: each expiry moves the governor and serves; after a trip the deadline is the full HOLDOFF_MS, which is
not 0. -/
theorem governorExpiriesServeOrAreReplaced : Obligations.GovernorExpiriesServeOrAreReplaced := by
  refine ⟨fun i s h => ⟨fun hexpired => ?_, fun hexpired => ?_⟩,
    fun s h hsound hexpired => ⟨?_, fun htrip => ?_⟩⟩
  · have he := expiry_serves h { s.governor with history := s.governor.history.eraseIdx i.val }
    obtain ⟨n, hn⟩ := he.served
    exact ⟨_, n, exec_grantHistoryExpiry hexpired, he.event, he.posted, hn⟩
  · have he := expiry_serves h { s.governor with state := .opened }
    obtain ⟨n, hn⟩ := he.served
    exact ⟨_, n, exec_holdoffExpiry hexpired, he.event, he.posted, hn⟩
  · obtain ⟨n, hn⟩ := (expiry_serves h { s.governor with state := .opened }).served
    exact ⟨_, n, exec_holdoffExpiry hexpired, hn⟩
  · obtain ⟨t, ht, -, hgov, -⟩ := tripCutsTheSlotHolders s h htrip
    have hstate : t.governor.state = .holdoff s.governor.settings.holdoffMs := by rw [hgov]
    refine ⟨t, ht, hstate, exec_holdoffExpiry_none ?_⟩
    rw [hstate]
    exact fun hzero => holdoffMs_ne_zero hsound (GovState.holdoff.inj hzero)

end Sys2Proof.Machine
end

section
/-! The Supply Monitor: moves of the supply and of the trip level (O33). -/

set_option Elab.async false

namespace Sys2Proof.Machine

variable {m : Monitor} {s : State}

/-! ## The comparison (R104, R105, R110) -/

/-- An ARMED monitor finds the supply below its trip level. -/
def Monitor.trips (m : Monitor) : Prop := m.state = .armed ∧ m.supply < m.tripLevel * 100

/-- A TRIPPED monitor finds the supply above its re-arm level. -/
def Monitor.arms (m : Monitor) : Prop := m.state = .tripped ∧ m.tripLevel * 100 + 300 < m.supply

theorem compareSupply_trips (h : s.monitor.trips) :
    compareSupply s =
      (s.setMonitor
        { s.monitor with state := .tripped, tripsHanded := s.monitor.tripsHanded + 1 }).raise .supplyTrip := by
  obtain ⟨hst, hlow⟩ := h
  simp [compareSupply, hst, Monitor.tripMv, hlow]

theorem compareSupply_arms (h : s.monitor.arms) :
    compareSupply s = s.setMonitor { s.monitor with state := .armed } := by
  obtain ⟨hst, hhigh⟩ := h
  simp [compareSupply, hst, Monitor.reArmMv, hhigh]

theorem compareSupply_kept (htrips : ¬ s.monitor.trips) (harms : ¬ s.monitor.arms) : compareSupply s = s := by
  cases hst : s.monitor.state with
  | armed =>
    have hlow : ¬ s.monitor.supply < s.monitor.tripMv := fun hlow => htrips ⟨hst, hlow⟩
    simp [compareSupply, hst, hlow]
  | tripped =>
    have hhigh : ¬ s.monitor.reArmMv < s.monitor.supply := fun hhigh => harms ⟨hst, hhigh⟩
    simp [compareSupply, hst, hhigh]

/-! ## How an event of the monitor ends -/

/-- What the comparison of a monitor `m` has done by the end of its event: SUPPLY_TRIP and one trip handed, the
monitor ARMED, or nothing. -/
def Compared (m : Monitor) (s t : State) : Prop :=
  if m.state = .armed ∧ m.supply < m.tripLevel * 100 then
    CausesSet 0x10 s t ∧ t.monitor = { m with state := .tripped, tripsHanded := m.tripsHanded + 1 }
  else if m.state = .tripped ∧ m.tripLevel * 100 + 300 < m.supply then
    RegsKept s t ∧ t.monitor = { m with state := .armed }
  else RegsKept s t ∧ t.monitor = m

/-- An event has ended in `t` in which the monitor, made `m`, compared the supply with its levels: nothing else has
changed but the registers. -/
def MonitorEvent (m : Monitor) (s t : State) : Prop :=
  PortsKept s t ∧ t.pending = s.pending ∧ ClockAndLinesKept s t ∧ GroupsKept s t ∧ t.governor = s.governor ∧
    t.reader = s.reader ∧ t.stampCounter = s.stampCounter ∧ BoardKept s t ∧ t.writer = s.writer ∧ Compared m s t

/-- A body that makes nothing but the monitor and the registers anew ends its event as it stands. -/
theorem settle_of_monitored (h : s.settled = true) (m : Monitor) (r : Registers) :
    settle ((s.quiet.setMonitor m).setRegs r) = (s.quiet.setMonitor m).setRegs r :=
  settle_eq_self h

theorem compareSupply_ends (h : s.settled = true) (m : Monitor) :
    MonitorEvent m s (settle (compareSupply (s.quiet.setMonitor m))) := by
  obtain ⟨n, r, hbody, hcompared⟩ : ∃ n r, compareSupply (s.quiet.setMonitor m) = (s.quiet.setMonitor n).setRegs r ∧
      Compared m s ((s.quiet.setMonitor n).setRegs r) := by
    unfold Compared
    split
    · rename_i htrips
      exact ⟨_, _, compareSupply_trips (s := s.quiet.setMonitor m) htrips, rfl, rfl⟩
    · rename_i htrips
      split
      · rename_i harms
        exact ⟨{ m with state := .armed }, s.regs, compareSupply_arms (s := s.quiet.setMonitor m) harms, rfl, rfl⟩
      · rename_i harms
        exact ⟨m, s.regs, compareSupply_kept (s := s.quiet.setMonitor m) htrips harms, rfl, rfl⟩
  rw [hbody, settle_of_monitored h]
  exact ⟨rfl, rfl, ⟨rfl, rfl⟩, ⟨rfl, rfl, rfl⟩, rfl, rfl, rfl, ⟨rfl, rfl⟩, rfl, hcompared⟩

/-! ## SUPPLY_TRIP, RE_ARM and TRIP_LEVEL_CHANGE -/

/-- Both rows move the supply-sense input (log entry 13). -/
theorem exec_supplyMoves {c : Instr} {mv : Nat} (hc : c = .supplyTrip mv ∨ c = .reArm mv) (s : State) :
    exec c s = .next (settle (compareSupply (s.quiet.setMonitor { s.monitor with supply := mv }))) := by
  rcases hc with rfl | rfl <;> rfl

theorem exec_tripLevelChange {level : Nat} {rest : List Nat} (hl : s.monitor.levelsHanded = level :: rest) :
    exec .tripLevelChange s =
      .next (settle (compareSupply
        (s.quiet.setMonitor { s.monitor with tripLevel := level, levelsHanded := rest }))) := by
  simp only [exec, execTripLevelChange, hl]
  rfl

/-- Settles O33: either way one comparison, of the monitor with the new supply or with the new level. -/
theorem supplyMonitorTripsAndArms : Obligations.SupplyMonitorTripsAndArms :=
  ⟨fun _ mv s h hc => ⟨_, exec_supplyMoves hc s, compareSupply_ends h { s.monitor with supply := mv }⟩,
    fun level rest s h hl =>
      ⟨_, exec_tripLevelChange hl, compareSupply_ends h { s.monitor with tripLevel := level, levelsHanded := rest }⟩⟩

end Sys2Proof.Machine
end

section
/-! Configuration requests: SET_GROUP, BIND_INPUT and SET_RIG (O39). -/

set_option Elab.async false

namespace Sys2Proof.Machine

variable {b data : Table Byte 64} {c : FetchedCopy} {s u : State}

/-! ## Bytes and numbers -/

/-- A run of bytes of a block, byte by byte. -/
theorem bytes_eq_map (b : Table Byte 64) {off n : Nat} (h : off + n ≤ 64) :
    (b.items.drop off).take n = (List.range n).map fun i => byteAt b (off + i) := by
  refine List.ext_getElem (by simp [b.size]; omega) fun i hi _ => ?_
  have hi : off + i < b.items.length := by
    rw [List.length_take] at hi
    rw [b.size]; omega
  simp [byteAt, List.getElem?_eq_getElem hi]

/-- A field of one byte is that byte. -/
theorem fieldAt_one (b : Table Byte 64) {k : Nat} (h : k < 64) : fieldAt b k 1 = numAt b k := by
  rw [fieldAt, bytes_eq_map b h]
  simp [leNat, numAt]

theorem small?_of_lt {n : Nat} (h : n < 8) : small? n = some ⟨n, h⟩ := dif_pos h

/-- Bytes that all name ports, read as ports. -/
theorem mapM_portNo {l : List Byte} (h : ∀ x ∈ l, x.toNat < 16) :
    ∃ ps, l.mapM portNo? = some ps ∧ ps.map (·.val) = l.map (·.toNat) := by
  induction l with
  | nil => exact ⟨[], rfl, rfl⟩
  | cons x l ih =>
    obtain ⟨ps, hps, hvals⟩ := ih fun y hy => h y (List.mem_cons_of_mem _ hy)
    have hx := h x List.mem_cons_self
    have hport : portNo? x = some ⟨x.toNat, hx⟩ := dif_pos hx
    exact ⟨⟨x.toNat, hx⟩ :: ps, by rw [List.mapM_cons, hport, hps]; rfl, by rw [List.map_cons, List.map_cons, hvals]⟩

/-! ## The checks a configuration request passes (Table 8-2) -/

/-- What a configuration request that is not refused has passed. -/
structure ConfigPassed (b : Table Byte 64) (s : State) : Prop where
  kind : numAt b 9 ≤ 9
  flags : flagsBad b = false
  target : targetBad b s = false
  params : paramsGood b = true
  idle : numAt b 9 ≠ 9 → concernBusy b s = false
  free : numAt b 9 = 9 → s.governor.queue = [] ∧ s.governor.slotsHeld = 0

theorem configPassed_of_refusalOf (hconfig : 7 ≤ numAt b 9) (hok : refusalOf b s = none) : ConfigPassed b s := by
  unfold refusalOf at hok
  dsimp only at hok
  split_ifs at hok with hkind hflags htarget hparams hlist hbusy hrig
  exact
    { kind := by omega
      flags := Bool.eq_false_of_not_eq_true hflags
      target := Bool.eq_false_of_not_eq_true htarget
      params := by simpa [hconfig] using hparams
      idle := fun hne => by
        have hgroup : numAt b 9 = 7 ∨ numAt b 9 = 8 := by omega
        simpa [hgroup] using hbusy
      free := fun hnine => by simpa [hnine] using hrig }

/-- The model's own check of the flags is that of Table 8-2. -/
theorem badFlags_config {k : Kind} (hk : k.isConfig = true) (hconfig : 7 ≤ numAt b 9) : badFlags k b = flagsBad b := by
  have hfour : (numAt b 9 != 4) = true := bne_iff_ne.2 (by omega)
  have hfive : decide (5 ≤ numAt b 9) = true := decide_eq_true (by omega)
  obtain ⟨hsleep, hport⟩ : (k != .sleep) = true ∧ (!k.isPortTarget) = true := by
    revert hk; cases k <;> decide
  unfold badFlags flagsBad
  rw [hfour, hfive, hsleep, hport]
  rfl

theorem badTarget_config {k : Kind} (hk : k.isConfig = true) (hconfig : 7 ≤ numAt b 9) (u : State) :
    badTarget k b u = targetBad b s := by
  simp only [badTarget, targetBad, hk, hconfig, if_true]
  rfl

/-- A POSTED block of a configuration kind that passes the checks is taken as that kind (R132). -/
theorem takeCopy_config {k : Kind} (hkind : kindOf c.data = some k) (hk : k.isConfig = true)
    (hconfig : 7 ≤ numAt c.data 9) (hpass : ConfigPassed c.data s) (u : State) : takeCopy c u = takeKind k c u := by
  unfold takeCopy
  rw [hkind]
  dsimp only
  rw [badFlags_config hk hconfig, hpass.flags, badTarget_config (s := s) hk hconfig, hpass.target]
  rfl

/-! ## The end of the take (R121) -/

/-- A configuration request has ended in `t`, when its effects have made `u` of the copy held: DONE, with sixteen
outcomes NONE. -/
structure ConfigEnds (c : FetchedCopy) (s u t : State) : Prop where
  pending : t.pending = s.pending
  ports : PortsKept s t
  reader : t.reader = s.reader
  stampCounter : t.stampCounter = s.stampCounter
  inflight : t.inflight = s.inflight
  regs : RegsKept s t
  writer : t.writer = s.writer
  lines : t.lines = s.lines
  pool : t.pool = s.pool
  took : Took c (.done (Table.replicate 16 .none)) [] [] s t
  cadence : t.cadence = u.cadence
  governor : t.governor = u.governor
  monitor : t.monitor = u.monitor
  groups : t.groups = u.groups
  bindings : t.bindings = u.bindings

/-- Nothing has changed but what configuration requests set. -/
def Configured (s u : State) : Prop :=
  u = { s with
    cadence := u.cadence, governor := u.governor, monitor := u.monitor, groups := u.groups, bindings := u.bindings }

theorem complete_ends (h : s.settled = true) (hst : s.walker.state = .fetching)
    (hu : Configured (copyHeld c s.quiet) u) : ConfigEnds c s u (settle (complete c noOutcomes u)) := by
  have hwalker : u.walker = (copyHeld c s.quiet).walker := by rw [hu]
  have hbody : complete c noOutcomes u = u.setWalker (complete c noOutcomes u).walker := complete_eq _ _ _
  have hfetching : (complete c noOutcomes u).walker.state = .fetching := by
    rw [complete, lookFromAnchor_moveAnchor]; rfl
  have hboard : (complete c noOutcomes u).walker.board = s.walker.board := by
    rw [complete, lookFromAnchor_moveAnchor]
    change u.walker.board = _
    rw [hwalker]; rfl
  have hwriter : (complete c noOutcomes u).writer = s.writer := by rw [hbody, hu]; rfl
  have hregs := settle_regs_of_attached (v := complete c noOutcomes u)
    (by rw [hfetching]; exact WalkerState.noConfusion)
  exact
    { pending := by rw [settle_pending, hbody, hu]; rfl
      ports := by rw [PortsKept, settle_ports, hbody, hu]; rfl
      reader := by rw [settle_reader, hbody, hu]; rfl
      stampCounter := by rw [settle_stampCounter, hbody, hu]; rfl
      inflight := by rw [settle_inflight, hbody, hu]; rfl
      regs := by rw [RegsKept, hregs, hbody, hu]; rfl
      writer := settle_writer_of_fetching h hst hfetching hboard hwriter
      lines := by rw [settle_lines, hbody, hu]; rfl
      pool := by rw [settle_pool, hbody, hu]; rfl
      took := took_of_complete hwalker
      cadence := by rw [settle_cadence, hbody]; rfl
      governor := by rw [settle_governor, hbody]; rfl
      monitor := by rw [settle_monitor, hbody]; rfl
      groups := by rw [settle_groups, hbody]; rfl
      bindings := by rw [settle_bindings, hbody]; rfl }

/-! ## SET_GROUP (R148, R155) -/

/-- What a SET_GROUP makes of its group: the definition its block spells, or none where it has no members. -/
def GroupAsked (b : Table Byte 64) (o : Option GroupDef) : Prop :=
  if numAt b 21 = 0 then o = none
  else
    ∃ d, o = some d ∧ d.lead = numAt b 22 ∧
      d.members.map (·.val) = (List.range (numAt b 21)).map fun i => numAt b (23 + i)

/-- The members that pass Table 8-3 are distinct ports. -/
theorem groupMembers_good {n : Nat} (hn : n ≤ 16)
    (h : ∀ i < n, numAt b (23 + i) < 16 ∧ ∀ j < i, numAt b (23 + i) ≠ numAt b (23 + j)) :
    ∃ ms, groupMembers? b n = some ms ∧ ms.Nodup ∧
      ms.map (·.val) = (List.range n).map fun i => numAt b (23 + i) := by
  have hbytes : ((b.items.drop 23).take 16).take n = (List.range n).map fun i => byteAt b (23 + i) := by
    rw [List.take_take, Nat.min_eq_left hn, bytes_eq_map b (by omega)]
  obtain ⟨ms, hms, hvals⟩ := mapM_portNo (l := (List.range n).map fun i => byteAt b (23 + i)) (by
    simp only [List.mem_map, List.mem_range]
    rintro x ⟨i, hi, rfl⟩
    exact (h i hi).1)
  rw [List.map_map] at hvals
  have hdistinct : ((List.range n).map fun i => numAt b (23 + i)).Nodup := by
    refine List.Nodup.map_on (fun i hi j hj heq => ?_) List.nodup_range
    rw [List.mem_range] at hi hj
    rcases Nat.lt_trichotomy i j with hlt | rfl | hlt
    · exact absurd heq.symm ((h j hj).2 i hlt)
    · rfl
    · exact absurd heq ((h i hi).2 j hlt)
  refine ⟨ms, by rw [groupMembers?, hbytes, hms], .of_map _ (hvals ▸ hdistinct), hvals⟩

theorem paramsGood_setGroup (hkind : numAt b 9 = 7) (h : paramsGood b = true) :
    numAt b 20 < 8 ∧ numAt b 21 ≤ 16 ∧ (if numAt b 21 = 0 then numAt b 22 = 0 else numAt b 22 < numAt b 21) ∧
      ∀ i < numAt b 21, numAt b (23 + i) < 16 ∧ ∀ j < i, numAt b (23 + i) ≠ numAt b (23 + j) := by
  simp only [paramsGood, hkind, Bool.and_eq_true, decide_eq_true_eq, List.all_eq_true, List.mem_range, bne_iff_ne] at h
  obtain ⟨⟨⟨hgroup, hcount⟩, hlead⟩, hmembers⟩ := h
  refine ⟨hgroup, hcount, ?_, hmembers⟩
  split at hlead <;> simp_all

/-- A SET_GROUP that passes Table 8-3 asks for what its block spells. -/
theorem groupRequest_of_params (hkind : numAt b 9 = 7) (h : paramsGood b = true) :
    ∃ q, groupRequest? b = some q ∧ q.group.val = numAt b 20 ∧ GroupAsked b q.defn := by
  obtain ⟨hgroup, hcount, hlead, hmembers⟩ := paramsGood_setGroup hkind h
  have hsmall := small?_of_lt hgroup
  obtain ⟨ms, hms, hnodup, hvals⟩ := groupMembers_good hcount hmembers
  unfold numAt at hsmall hcount hlead hms
  unfold groupRequest? GroupAsked
  simp only [hsmall]
  by_cases hzero : (byteAt b 21).toNat = 0
  · rw [if_pos hzero] at hlead
    simp [numAt, hzero, hlead]
  · rw [if_neg hzero] at hlead
    simp only [numAt, hzero, if_false, hcount, hlead, and_self, if_true, hms, hnodup]
    exact ⟨_, rfl, rfl, _, rfl, rfl, hvals⟩

theorem groupBusy_eq_sweeping (g : GroupNo) (s : State) : groupBusy g s = sweeping s g.val := by
  rw [sweeping, Fin.ofNat_val_eq_self]; rfl

/-- A group defined, or its definition removed (R148). -/
def State.defineGroup (s : State) (g : GroupNo) (o : Option GroupDef) : State :=
  s.setGroup g { s.group g with defn := o }

theorem group_defineGroup (s : State) (g k : GroupNo) (o : Option GroupDef) :
    (s.defineGroup g o).group k = { s.group k with defn := if k = g then o else (s.group k).defn } := by
  rw [State.defineGroup, group_setGroup]
  split
  · subst_vars; rfl
  · rfl

/-- An idle group is defined as asked. -/
theorem takeSetGroup_defines {q : GroupRequest} (hq : groupRequest? c.data = some q)
    (hidle : groupBusy q.group u = false) :
    takeSetGroup c u = complete c noOutcomes (u.defineGroup q.group q.defn) := by
  simp [takeSetGroup, hq, hidle, State.defineGroup]

/-- The group that a SET_GROUP names is defined or removed as asked, and nothing else is configured. -/
def GroupSet (b : Table Byte 64) (s t : State) : Prop :=
  t.cadence = s.cadence ∧ SupplyKept s t ∧ t.bindings = s.bindings ∧
    ∀ g, t.group g =
        { s.group g with defn := if g.val = numAt b 20 then (t.group g).defn else (s.group g).defn } ∧
      (g.val = numAt b 20 → GroupAsked b (t.group g).defn)

/-- A take that defines one group. -/
theorem defineGroup_ends (h : s.settled = true) (hst : s.walker.state = .fetching) {g : GroupNo}
    {o : Option GroupDef} (hg : g.val = numAt c.data 20) (ho : GroupAsked c.data o) :
    ∃ u, ConfigEnds c s u (settle (complete c noOutcomes ((copyHeld c s.quiet).defineGroup g o))) ∧
      GroupSet c.data s (settle (complete c noOutcomes ((copyHeld c s.quiet).defineGroup g o))) := by
  have he := complete_ends h hst (c := c) (u := (copyHeld c s.quiet).defineGroup g o) rfl
  refine ⟨_, he, he.cadence, ⟨he.governor, he.monitor⟩, he.bindings, fun k => ?_⟩
  have hread : (settle (complete c noOutcomes ((copyHeld c s.quiet).defineGroup g o))).group k =
      { s.group k with defn := if k = g then o else (s.group k).defn } := by
    rw [State.group, he.groups, ← State.group, group_defineGroup]; rfl
  rw [hread]
  by_cases hk : k.val = numAt c.data 20
  · simp only [if_pos hk, if_pos (Fin.ext (hk.trans hg.symm) : k = g)]
    exact ⟨trivial, fun _ => ho⟩
  · have hne : k ≠ g := fun heq => hk (heq ▸ hg)
    exact ⟨by rw [if_neg hk, if_neg hne], fun heq => absurd heq hk⟩

theorem setGroup_ends (h : s.settled = true) (hst : s.walker.state = .fetching) (hkind : numAt c.data 9 = 7)
    (hpass : ConfigPassed c.data s) :
    ∃ u, ConfigEnds c s u (settle (takeKind .setGroup c (copyHeld c s.quiet))) ∧
      GroupSet c.data s (settle (takeKind .setGroup c (copyHeld c s.quiet))) := by
  obtain ⟨q, hq, hgroup, hasked⟩ := groupRequest_of_params hkind hpass.params
  have hidle : groupBusy q.group (copyHeld c s.quiet) = false := by
    have hconcern := hpass.idle (by omega)
    rw [concernBusy, if_pos hkind, ← hgroup] at hconcern
    exact (groupBusy_eq_sweeping q.group s).trans hconcern
  rw [takeKind, takeSetGroup_defines hq hidle]
  exact defineGroup_ends h hst hgroup hasked

/-! ## BIND_INPUT (R149, R168) -/

/-- Action codes (Table 10-3). -/
def Action.code : Action → Nat
  | .wake => 1 | .pause => 2 | .resume => 3 | .sleep => 4

/-- Edge codes (Table 10-3). -/
def EdgeSel.code : EdgeSel → Nat
  | .rise => 1 | .fall => 2 | .both => 3

/-- A binding is the one that a BIND_INPUT spells. -/
def BindingAsked (b : Table Byte 64) (x : Binding) : Prop :=
  x.group.val = numAt b 22 ∧ numAt b 23 = x.action.code ∧ numAt b 24 = x.edge.code ∧ x.stagger = numAt b 25

/-- Every code of the table names an action. -/
theorem action?_of_code {n : Nat} (hlow : 1 ≤ n) (hhigh : n ≤ 4) : ∃ x, action? n = some x ∧ n = x.code := by
  interval_cases n <;> exact ⟨_, rfl, rfl⟩

/-- Every code of the table names an edge. -/
theorem edge?_of_code {n : Nat} (hlow : 1 ≤ n) (hhigh : n ≤ 3) : ∃ x, edge? n = some x ∧ n = x.code := by
  interval_cases n <;> exact ⟨_, rfl, rfl⟩

/-- A BIND_INPUT that passes Table 8-3 asks for a removal or for the binding its block spells. -/
theorem bindRequest_of_params (hkind : numAt b 9 = 8) (h : paramsGood b = true) :
    ∃ n : LineNo, n.val = numAt b 20 ∧
      ((numAt b 21 = 2 ∧ bindRequest? b = some (.unbind n)) ∨
        (numAt b 21 = 1 ∧ ∃ x, bindRequest? b = some (.bind n x) ∧ BindingAsked b x)) := by
  simp only [paramsGood, hkind, Bool.and_eq_true, Bool.or_eq_true, decide_eq_true_eq, beq_iff_eq] at h
  obtain ⟨hline, hask⟩ := h
  have hlineNo : small? (byteAt b 20).toNat = some ⟨numAt b 20, hline⟩ := small?_of_lt hline
  refine ⟨⟨_, hline⟩, rfl, hask.imp (fun hunbind => ⟨hunbind, ?_⟩) ?_⟩
  · unfold numAt at hunbind
    simp only [bindRequest?, hlineNo, hunbind]
  · rintro ⟨⟨⟨⟨⟨hbind, hgroup⟩, hact₁⟩, hact₄⟩, hedge₁⟩, hedge₃⟩
    refine ⟨hbind, ?_⟩
    obtain ⟨x, hx, hxcode⟩ := action?_of_code hact₁ hact₄
    obtain ⟨e, he, hecode⟩ := edge?_of_code hedge₁ hedge₃
    have hgroupNo : small? (byteAt b 22).toNat = some ⟨numAt b 22, hgroup⟩ := small?_of_lt hgroup
    unfold numAt at hbind hx he
    refine ⟨{ group := ⟨_, hgroup⟩, action := x, edge := e, stagger := numAt b 25 }, ?_, rfl, hxcode, hecode, rfl⟩
    simp only [bindRequest?, hlineNo, hbind, hgroupNo, hx, he]
    rfl

/-- A line is bound to an idle group. -/
theorem takeBindInput_binds {n : LineNo} {x : Binding} (hq : bindRequest? c.data = some (.bind n x))
    (hidle : groupBusy x.group u = false) : takeBindInput c u = complete c noOutcomes (u.setBinding n (some x)) := by
  simp [takeBindInput, hq, hidle]

/-- A line whose group, if it is bound, is idle loses its binding. -/
theorem takeBindInput_unbinds {n : LineNo} (hq : bindRequest? c.data = some (.unbind n))
    (hidle : ((u.binding n).any fun x => groupBusy x.group u) = false) :
    takeBindInput c u = complete c noOutcomes (u.setBinding n none) := by
  simp [takeBindInput, hq, hidle]

theorem binding_setBinding (s : State) (n m : LineNo) (x : Option Binding) :
    (s.setBinding n x).binding m = if m = n then x else s.binding m := by
  simp [State.binding, Table.get_set]

/-- The line that a BIND_INPUT names is bound or freed as asked, and nothing else is configured. -/
def LineBound (b : Table Byte 64) (s t : State) : Prop :=
  t.cadence = s.cadence ∧ SupplyKept s t ∧ t.groups = s.groups ∧
    ∀ n, (n.val ≠ numAt b 20 → t.binding n = s.binding n) ∧
      (n.val = numAt b 20 →
        if numAt b 21 = 2 then t.binding n = none else ∃ x, t.binding n = some x ∧ BindingAsked b x)

/-- A take that sets the binding of one line. -/
theorem setBinding_ends (h : s.settled = true) (hst : s.walker.state = .fetching) {n : LineNo} {o : Option Binding}
    (hn : n.val = numAt c.data 20)
    (ho : if numAt c.data 21 = 2 then o = none else ∃ x, o = some x ∧ BindingAsked c.data x) :
    ∃ u, ConfigEnds c s u (settle (complete c noOutcomes ((copyHeld c s.quiet).setBinding n o))) ∧
      LineBound c.data s (settle (complete c noOutcomes ((copyHeld c s.quiet).setBinding n o))) := by
  have he := complete_ends h hst (c := c) (u := (copyHeld c s.quiet).setBinding n o) rfl
  have hread : ∀ m, (settle (complete c noOutcomes ((copyHeld c s.quiet).setBinding n o))).binding m =
      if m = n then o else s.binding m := fun m => by
    rw [State.binding, he.bindings, ← State.binding, binding_setBinding]; rfl
  refine ⟨_, he, he.cadence, ⟨he.governor, he.monitor⟩, he.groups, fun m => ?_⟩
  rw [hread m, ← hn]
  exact ⟨fun hm => if_neg fun heq => hm (congrArg Fin.val heq), fun hm => by rw [if_pos (Fin.ext hm)]; exact ho⟩

theorem bindInput_ends (h : s.settled = true) (hst : s.walker.state = .fetching) (hkind : numAt c.data 9 = 8)
    (hpass : ConfigPassed c.data s) :
    ∃ u, ConfigEnds c s u (settle (takeKind .bindInput c (copyHeld c s.quiet))) ∧
      LineBound c.data s (settle (takeKind .bindInput c (copyHeld c s.quiet))) := by
  obtain ⟨n, hn, hask⟩ := bindRequest_of_params hkind hpass.params
  have hconcern := hpass.idle (by omega)
  rw [concernBusy, if_neg (by omega)] at hconcern
  rw [takeKind]
  rcases hask with ⟨hunbind, hq⟩ | ⟨hbind, x, hq, hasked⟩
  · have hidle : ((copyHeld c s.quiet).binding n).any (fun x => groupBusy x.group (copyHeld c s.quiet)) = false := by
      rw [if_neg (by omega), ← hn, Fin.ofNat_val_eq_self] at hconcern
      simp only [← groupBusy_eq_sweeping] at hconcern
      exact hconcern
    rw [takeBindInput_unbinds hq hidle]
    exact setBinding_ends h hst hn (by rw [if_pos hunbind])
  · have hidle : groupBusy x.group (copyHeld c s.quiet) = false := by
      rw [if_pos hbind, ← hasked.1] at hconcern
      exact (groupBusy_eq_sweeping x.group s).trans hconcern
    rw [takeBindInput_binds hq hidle]
    exact setBinding_ends h hst hn (by rw [if_neg (by omega)]; exact ⟨x, rfl, hasked⟩)

/-! ## SET_RIG (R94, R175) -/

/-- A setting that a SET_RIG gives, when its bit of the given mask is 1 (R175). -/
def offered (b : Table Byte 64) (bit off size : Nat) : Option Nat :=
  if (byteAt b 20).getLsbD bit then some (fieldAt b off size) else none

/-- The offer of a SET_RIG, field by field (Table 10-3). -/
theorem rigOffer_eq (b : Table Byte 64) :
    rigOffer b =
      { grantLimit := offered b 0 21 1, windowMs := offered b 1 24 2, bootCap := offered b 2 22 1
        holdoffMs := offered b 3 26 2, tripLevel := offered b 4 23 1, beatMs := offered b 5 28 2 } := by
  simp only [rigOffer, offered, fieldAt_one b (show 21 < 64 by decide), fieldAt_one b (show 22 < 64 by decide),
    fieldAt_one b (show 23 < 64 by decide), numAt]

theorem inRange_offered (b : Table Byte 64) (bit off size lo hi : Nat) :
    inRange lo hi (offered b bit off size) = settingGood b bit off size lo hi := by
  unfold offered settingGood
  cases (byteAt b 20).getLsbD bit <;> simp [inRange]

theorem rigOffer_inRange (hkind : numAt b 9 = 9) (h : paramsGood b = true) : (rigOffer b).inRange = true := by
  simpa only [paramsGood, hkind, rigOffer_eq, RigOffer.inRange, inRange_offered] using h

theorem not_busy {g : Governor} (hq : g.queue = []) (hheld : g.slotsHeld = 0) : g.busy = false := by
  have hnone : true ∉ g.holders.items := List.count_eq_zero.1 hheld
  simp [Governor.busy, hq, hnone]

/-- A governor that is not busy takes an offer in range. -/
theorem takeSetRig_accepts (hrange : (rigOffer c.data).inRange = true) (hbusy : u.governor.busy = false) :
    takeSetRig c u = complete c noOutcomes (acceptOffer (rigOffer c.data) u) := by
  simp [takeSetRig, hrange, hbusy]

theorem acceptOffer_governor (o : RigOffer) (s : State) :
    (acceptOffer o s).governor =
      { s.governor with
        settings :=
          { grantLimit := o.grantLimit.getD s.governor.settings.grantLimit
            windowMs := o.windowMs.getD s.governor.settings.windowMs
            bootCap := o.bootCap.getD s.governor.settings.bootCap
            holdoffMs := o.holdoffMs.getD s.governor.settings.holdoffMs
            tripLevel := o.tripLevel.getD s.governor.settings.tripLevel } } := by
  unfold acceptOffer
  cases o.beatMs <;> rfl

theorem acceptOffer_cadence (o : RigOffer) (s : State) :
    (acceptOffer o s).cadence = { s.cadence with pendingBeatMs := o.beatMs.or s.cadence.pendingBeatMs } := by
  unfold acceptOffer
  cases o.beatMs <;> rfl

/-- A setting after a SET_RIG: the one given, or the old one. -/
def givenOr (b : Table Byte 64) (bit off size old : Nat) : Nat :=
  if (byteAt b 20).getLsbD bit then fieldAt b off size else old

theorem offered_getD (b : Table Byte 64) (bit off size old : Nat) :
    (offered b bit off size).getD old = givenOr b bit off size old := by
  unfold offered givenOr; split <;> rfl

theorem offered_toList (b : Table Byte 64) (bit off size : Nat) :
    (offered b bit off size).toList = if (byteAt b 20).getLsbD bit then [fieldAt b off size] else [] := by
  unfold offered; split <;> rfl

/-- A beat length offered becomes pending; otherwise the one that was stays (R40). -/
theorem offered_or (b : Table Byte 64) (bit off size : Nat) (old : Option Nat) :
    (offered b bit off size).or old = if (byteAt b 20).getLsbD bit then some (fieldAt b off size) else old := by
  unfold offered; split <;> rfl

/-- The settings that a SET_RIG gives are stored, a trip level given is handed to the monitor and a beat length given
is pending; nothing else is configured. -/
def RigSet (b : Table Byte 64) (s t : State) : Prop :=
  t.groups = s.groups ∧ t.bindings = s.bindings ∧
    t.governor =
      { s.governor with
        settings :=
          { grantLimit := givenOr b 0 21 1 s.governor.settings.grantLimit
            windowMs := givenOr b 1 24 2 s.governor.settings.windowMs
            bootCap := givenOr b 2 22 1 s.governor.settings.bootCap
            holdoffMs := givenOr b 3 26 2 s.governor.settings.holdoffMs
            tripLevel := givenOr b 4 23 1 s.governor.settings.tripLevel } } ∧
    t.monitor =
      { s.monitor with
        levelsHanded := s.monitor.levelsHanded ++ (if (byteAt b 20).getLsbD 4 then [fieldAt b 23 1] else []) } ∧
    t.cadence =
      { s.cadence with
        pendingBeatMs :=
          if (byteAt b 20).getLsbD 5 then some (fieldAt b 28 2) else s.cadence.pendingBeatMs }

theorem setRig_ends (h : s.settled = true) (hst : s.walker.state = .fetching) (hkind : numAt c.data 9 = 9)
    (hpass : ConfigPassed c.data s) :
    ∃ u, ConfigEnds c s u (settle (takeKind .setRig c (copyHeld c s.quiet))) ∧
      RigSet c.data s (settle (takeKind .setRig c (copyHeld c s.quiet))) := by
  obtain ⟨hqueue, hheld⟩ := hpass.free hkind
  have hframe := acceptOffer_frame (rigOffer c.data) (copyHeld c s.quiet)
  rw [takeKind, takeSetRig_accepts (rigOffer_inRange hkind hpass.params) (u := copyHeld c s.quiet)
    (not_busy hqueue hheld)]
  have he := complete_ends h hst (c := c) (u := acceptOffer (rigOffer c.data) (copyHeld c s.quiet))
    (by rw [Configured, hframe])
  refine ⟨_, he, he.groups.trans (by rw [hframe]; rfl), he.bindings.trans (by rw [hframe]; rfl),
    he.governor.trans ?_, he.monitor.trans ?_, he.cadence.trans ?_⟩
  · rw [acceptOffer_governor, rigOffer_eq]
    simp only [offered_getD]
    rfl
  · rw [hframe, rigOffer_eq]
    simp only [offered_toList]
    rfl
  · rw [acceptOffer_cadence, rigOffer_eq]
    simp only [offered_or]
    rfl

/-! ## The request -/

theorem exec_config {a : BusAccess} {k : Kind} (hst : s.walker.state = .fetching)
    (hread : s.reading a (.blockRead c.address)) (hposted : numAt c.data 8 = 1) (hkind : kindOf c.data = some k)
    (hk : k.isConfig = true) (hconfig : 7 ≤ numAt c.data 9) (hpass : ConfigPassed c.data s) :
    exec (.blockReadComplete c.data) s = .next (settle (takeKind k c (copyHeld c s.quiet))) := by
  rw [exec_blockRead_posted hst hread hposted, takeCopy_config hkind hk hconfig hpass]

/-- Settles O39: the checks of Table 8-2 leave one of the three kinds, and each completes on what it has set. -/
theorem configurationRequestsTakeEffect : Obligations.ConfigurationRequestsTakeEffect := by
  intro b a data s h hst hread hposted hconfig hok
  have hpass := configPassed_of_refusalOf hconfig hok
  have hkinds : numAt data 9 = 7 ∨ numAt data 9 = 8 ∨ numAt data 9 = 9 := by
    have := hpass.kind
    omega
  have hexec {k : Kind} (hkind : kindOf data = some k) (hk : k.isConfig = true) :=
    exec_config (c := { address := a, data := data }) hst hread hposted hkind hk hconfig hpass
  rcases hkinds with hseven | height | hnine
  · obtain ⟨u, he, hset⟩ := setGroup_ends (c := { address := a, data := data }) h hst hseven hpass
    have hkind : kindOf data = some .setGroup := by unfold numAt at hseven; simp [kindOf, hseven]
    exact ⟨_, hexec hkind rfl, he.pending, he.ports, he.reader, he.stampCounter, he.inflight, he.regs, he.writer,
      he.lines, he.pool, he.took, fun _ => hset, fun _ => by omega, fun _ => by omega⟩
  · obtain ⟨u, he, hset⟩ := bindInput_ends (c := { address := a, data := data }) h hst height hpass
    have hkind : kindOf data = some .bindInput := by unfold numAt at height; simp [kindOf, height]
    exact ⟨_, hexec hkind rfl, he.pending, he.ports, he.reader, he.stampCounter, he.inflight, he.regs, he.writer,
      he.lines, he.pool, he.took, fun _ => by omega, fun _ => hset, fun _ => by omega⟩
  · obtain ⟨u, he, hset⟩ := setRig_ends (c := { address := a, data := data }) h hst hnine hpass
    have hkind : kindOf data = some .setRig := by unfold numAt at hnine; simp [kindOf, hnine]
    exact ⟨_, hexec hkind rfl, he.pending, he.ports, he.reader, he.stampCounter, he.inflight, he.regs, he.writer,
      he.lines, he.pool, he.took, fun _ => by omega, fun _ => by omega, fun _ => hset⟩

end Sys2Proof.Machine
end

section
/-! How an event of the chain walker ends: what it leaves alone, the next access, and an entry to HALTED (R117, R126,
R180). -/

set_option Elab.async false

namespace Sys2Proof.Machine

variable {s t u v : State}

/-! ## What an event of the walker leaves alone -/

/-- Nothing has changed outside the walker, the Status Writer, the registers and the wires. -/
def BoardFrame (s v : State) : Prop :=
  v = { s with acts := v.acts, walker := v.walker, writer := v.writer, regs := v.regs }

theorem settle_onlyBoard (h : OnlyBoard s v) : OnlyBoard s (settle v) := by
  obtain ⟨hrig, hports, hreader, hstamp⟩ := h
  exact ⟨settle_rigKept hrig, (settle_ports v).trans hports, (settle_reader v).trans hreader,
    (settle_stampCounter v).trans hstamp⟩

/-- An event with such a body leaves the rest alone too. -/
theorem BoardFrame.ends (h : BoardFrame s v) : OnlyBoard s (settle v) ∧ (settle v).inflight = s.inflight := by
  refine ⟨settle_onlyBoard ?_, ?_⟩
  · rw [h]
    exact ⟨⟨rfl, ⟨rfl, rfl⟩, ⟨rfl, rfl, rfl⟩, rfl, rfl⟩, rfl, rfl, rfl⟩
  · rw [settle_inflight, h]

/-! ## The read in progress (R124, R126) -/

theorem readCounts_iff (s : State) (b : BusAccess) :
    readCounts s b = true ↔ b.atHalt = false ∧ s.walker.state ≠ .detaching := by
  simp [readCounts]

/-- The state in which the access in progress has been taken off the bus. -/
def offBus (s : State) : State := endAccess s.quiet

theorem offBus_walker (s : State) : (offBus s).walker = { s.walker with current := none } := rfl

section Reads

variable {b : BusAccess} {a : Addr} (hcounts : readCounts s.quiet b = true)

include hcounts

theorem exec_headerRead (hcur : s.walker.current = some b) (hacc : b.access = .headerRead a)
    (data : Table Byte 64) :
    exec (.headerReadComplete data) s = .next (settle (headerRead a data (offBus s))) := by
  change execHeaderReadComplete data s = _
  simp [execHeaderReadComplete, hcur, hacc, event_eq, hcounts, offBus]

theorem exec_linkRead (hcur : s.walker.current = some b) (hacc : b.access = .linkRead) (link : Addr) :
    exec (.linkReadComplete link) s = .next (settle (linkRead link (offBus s))) := by
  change execLinkReadComplete link s = _
  simp [execLinkReadComplete, hcur, hacc, event_eq, hcounts, offBus]

theorem exec_blockRead (hcur : s.walker.current = some b) (hacc : b.access = .blockRead a)
    (data : Table Byte 64) :
    exec (.blockReadComplete data) s = .next (settle (blockRead a data (offBus s))) := by
  change execBlockReadComplete data s = _
  simp [execBlockReadComplete, hcur, hacc, event_eq, hcounts, offBus]

end Reads

/-! ## The next access (R117) -/

/-- A walker with nothing in progress begins the first access of its list, where it may. -/
theorem beginAccess_walkerNow (hmay : v.walker.accesses.head?.all v.walker.mayBegin = true)
    (hcur : v.walker.current = none) : WalkerNow v.walker v.walker.accesses (beginAccess v) := by
  unfold WalkerNow beginAccess
  rw [hcur]
  cases hacc : v.walker.accesses with
  | nil =>
    simp only [List.tail_nil, List.head?_nil, Option.map_none]
    rw [← hacc, ← hcur]
  | cons a rest =>
    rw [hacc, List.head?_cons, Option.all_some] at hmay
    simp only [hmay, if_true, List.tail_cons, List.head?_cons, Option.map_some, setWalker_walker]
    rw [busAccess_congr (u := v) a (setWalker_cadence ..) rfl]

/-- As the event ends, unless a detach does (R125). -/
theorem settle_begins (hfinish : finishDetach v = v) (hmay : v.walker.accesses.head?.all v.walker.mayBegin = true)
    (hcur : v.walker.current = none) : WalkerNow v.walker v.walker.accesses (settle v) := by
  have hwalker : (beginSlotWrite (silenceWriter v)).walker = v.walker := by simp
  rw [settle, hfinish, ← hwalker]
  exact beginAccess_walkerNow (by rw [hwalker]; exact hmay) (by rw [hwalker]; exact hcur)

/-- An attached walker may begin every access. -/
theorem mayBegin_of_attached {w : Walker} (h : w.state.attached = true) (o : Option Access) :
    o.all w.mayBegin = true := by
  cases o <;> simp [Walker.mayBegin, h]

/-- A change that leaves the Status Writer alone, and the walker attached or not as it was, begins no slot write
(R178, R180). -/
theorem settle_writer_same (h : s.settled = true) (hfinish : finishDetach v = v)
    (hatt : v.walker.state.attached = s.walker.state.attached) (hboard : v.walker.board = s.walker.board)
    (hwriter : v.writer = s.writer) : (settle v).writer = s.writer := by
  rw [settle, hfinish, beginAccess_writer]
  cases hs : s.walker.state.attached
  · have hsilence : (silenceWriter v).writer = (silenceWriter s).writer := by
      simp [silenceWriter, hatt, hs, hwriter]
    rw [beginSlotWrite, if_neg (by rw [silenceWriter_walker, hatt, hs]; exact Bool.false_ne_true), hsilence,
      silenceWriter_of_settled h]
  · rw [show silenceWriter v = v from if_pos (hatt.trans hs)]
    exact beginSlotWrite_of_settled_congr h hs hboard hwriter

theorem finishDetach_of_ne (h : v.walker.state ≠ .detaching) : finishDetach v = v :=
  if_neg fun hall => h hall.1

/-! ## Entry to WATCHING (R118) -/

theorem enterWatching_eq (s : State) :
    enterWatching s =
      s.setWalker
        { s.walker with
          state := .watching, lookAgain := false
          accesses := s.walker.accesses ++ if s.walker.lookAgain then [.linkRead] else [] } := by
  cases hlook : s.walker.lookAgain <;> simp [enterWatching, State.place, State.setWalker, hlook]

/-! ## Entry to HALTED (R114, R126) -/

/-- The Status Writer silenced (R180). -/
def Writer.silenced (w : Writer) : Writer :=
  { w with posting := [], current := w.current.map fun x => { x with orphan := true } }

/-- Of what stays on the list of a halted walker nothing begins. -/
theorem settle_haltWalker (r : HaltReason) (s : State) :
    settle (haltWalker r s) = (haltWalker r s).setWriter s.writer.silenced := by
  have hfinish : finishDetach (haltWalker r s) = haltWalker r s := finishDetach_of_ne WalkerState.noConfusion
  have hsilence : silenceWriter (haltWalker r s) = (haltWalker r s).setWriter s.writer.silenced :=
    if_neg (by simp [haltWalker, WalkerState.attached])
  have hslot (w : Writer) : beginSlotWrite ((haltWalker r s).setWriter w) = (haltWalker r s).setWriter w :=
    if_neg (by simp [haltWalker, WalkerState.attached])
  rw [settle, hfinish, hsilence, hslot]
  unfold beginAccess
  split
  · rename_i a rest _ hacc
    have hmem : a ∈ s.walker.accesses.filter fun a => !a.isRead := by
      rw [show (s.walker.accesses.filter fun a => !a.isRead) = a :: rest from hacc]; exact List.mem_cons_self
    have hread : a.isRead = false := by simpa using (List.mem_filter.1 hmem).2
    refine if_neg ?_
    cases a with
    | headerRead _ => cases hread
    | _ => exact Bool.false_ne_true
  · rfl

/-- A walker that differs by what is in progress, its list and its copy alone halts as HALTED is entered. -/
theorem settle_halts (r : HaltReason)
    (hw : u.walker =
      { s.walker with current := u.walker.current, accesses := u.walker.accesses, copy := u.walker.copy })
    (hregs : u.regs = s.regs) (hwriter : u.writer = s.writer) :
    HaltedWith r s (settle (haltWalker r u)) := by
  rw [settle_haltWalker]
  refine ⟨?_, ?_, ?_⟩
  · rw [setWriter_walker, haltWalker, raise_walker, setWalker_walker, hw]
  · rw [CausesSet, setWriter_regs, haltWalker, raise_regs, setWalker_regs, hregs]; rfl
  · rw [setWriter_writer, hwriter]; rfl

theorem settle_halt_accesses (r : HaltReason) (u : State) :
    (settle (haltWalker r u)).walker.accesses = u.walker.accesses.filter fun a => !a.isRead := by
  rw [settle_haltWalker]; rfl

theorem settle_halt_current (r : HaltReason) (u : State) :
    (settle (haltWalker r u)).walker.current = u.walker.current.map fun b => { b with atHalt := true } := by
  rw [settle_haltWalker]; rfl

theorem haltWalker_frame (r : HaltReason) (h : BoardFrame s u) : BoardFrame s (haltWalker r u) := by
  unfold BoardFrame at h ⊢
  rw [h]; rfl

end Sys2Proof.Machine
end

section
/-! The reads of header and link (O36, O37). -/

set_option Elab.async false

namespace Sys2Proof.Machine

variable {b : BusAccess} {a link : Addr} {data : Table Byte 64} {s : State}

/-! ## The link (R118, R119) -/

theorem offBus_frame (s : State) : BoardFrame s (offBus s) := rfl

theorem attached_of_reads (h : s.walker.state = .watching ∨ s.walker.state = .fetching) :
    s.walker.state.attached = true ∧ s.walker.state ≠ .detaching := by
  rcases h with h | h <;> rw [h] <;> exact ⟨rfl, WalkerState.noConfusion⟩

theorem linkRead_absent (s : State) : linkRead 0 s = enterWatching s := if_pos rfl

theorem linkRead_bad (h : link.toNat % 64 ≠ 0) (s : State) : linkRead link s = haltWalker .badLink s := by
  have hne : link ≠ 0 := fun h0 => h (by rw [h0]; rfl)
  rw [linkRead, if_neg hne, if_pos h]

theorem linkRead_fetches (hne : link ≠ 0) (h : link.toNat % 64 = 0) (s : State) :
    linkRead link s = (s.setWalker { s.walker with state := .fetching }).place (.blockRead link) := by
  rw [linkRead, if_neg hne, if_neg (not_not.2 h)]

/-- How an event of an attached walker ends whose body leaves registers and Status Writer alone, with nothing in
progress and no detach to finish. -/
theorem settle_watches {v : State} (h : s.settled = true) (hs : s.walker.state.attached = true)
    (hv : v.walker.state.attached = true) (hd : v.walker.state ≠ .detaching)
    (hboard : v.walker.board = s.walker.board) (hwriter : v.writer = s.writer) (hregs : v.regs = s.regs)
    (hcur : v.walker.current = none) :
    RegsKept s (settle v) ∧ (settle v).writer = s.writer ∧ WalkerNow v.walker v.walker.accesses (settle v) :=
  ⟨(settle_regs_of_attached hd).trans hregs,
    settle_writer_same h (finishDetach_of_ne hd) (hv.trans hs.symm) hboard hwriter,
    settle_begins (finishDetach_of_ne hd) (mayBegin_of_attached hv _) hcur⟩

/-- An attached walker watches its anchor again, with a look where one was asked for (R118). -/
theorem settle_enterWatching {u : State} (h : s.settled = true) (hs : s.walker.state.attached = true)
    (hboard : u.walker.board = s.walker.board) (hwriter : u.writer = s.writer) (hregs : u.regs = s.regs)
    (hcur : u.walker.current = none) :
    RegsKept s (settle (enterWatching u)) ∧ (settle (enterWatching u)).writer = s.writer ∧
      WalkerNow { u.walker with state := .watching, lookAgain := false }
        (u.walker.accesses ++ if u.walker.lookAgain then [.linkRead] else []) (settle (enterWatching u)) := by
  rw [enterWatching_eq]
  exact settle_watches h hs rfl WalkerState.noConfusion hboard hwriter hregs hcur

theorem enterWatching_frame {u : State} (h : BoardFrame s u) : BoardFrame s (enterWatching u) := by
  rw [enterWatching_eq]
  unfold BoardFrame at h ⊢
  rw [h]; rfl

/-- Settles O37: by whether the link is 0, off a multiple of 64, or neither. -/
theorem linkReadsFetchWatchOrHalt : Obligations.LinkReadsFetchWatchOrHalt := by
  rintro b link s h ⟨hcur, hacc, hhalt⟩ hst
  obtain ⟨hatt, hd⟩ := attached_of_reads hst
  refine ⟨_, exec_linkRead ((readCounts_iff _ _).2 ⟨hhalt, hd⟩) hcur hacc link, ?_⟩
  have hframe := offBus_frame s
  by_cases hne : link = 0
  · subst hne
    rw [linkRead_absent]
    obtain ⟨hboard, hinflight⟩ := (enterWatching_frame hframe).ends
    exact ⟨hboard, hinflight, fun _ => settle_enterWatching (u := offBus s) h hatt rfl rfl rfl rfl,
      fun hbad => absurd rfl hbad, fun hno => absurd rfl hno⟩
  · by_cases hbad : link.toNat % 64 = 0
    · rw [linkRead_fetches hne hbad]
      obtain ⟨hboard, hinflight⟩ := BoardFrame.ends (s := s)
        (v := ((offBus s).setWalker { (offBus s).walker with state := .fetching }).place (.blockRead link)) rfl
      exact ⟨hboard, hinflight, fun h0 => absurd h0 hne, fun h64 => absurd hbad h64, fun _ _ =>
        settle_watches h hatt rfl WalkerState.noConfusion rfl rfl rfl rfl⟩
    · rw [linkRead_bad hbad]
      obtain ⟨hboard, hinflight⟩ := (haltWalker_frame .badLink hframe).ends
      exact ⟨hboard, hinflight, fun h0 => absurd h0 hne, fun _ =>
        ⟨settle_halts .badLink rfl rfl rfl, settle_halt_current .., settle_halt_accesses ..⟩,
        fun _ h64 => absurd h64 hbad⟩

/-! ## The header (R115, R116) -/

/-- The walker after a good header has been read, before the look at the anchor (R115, R116). -/
def Walker.attachedAt (w : Walker) (a : Addr) (data : Table Byte 64) : Walker :=
  { w with
    state := .watching, lookAgain := false
    board := some { header := a, statusPage := headerStatusPage data }
    anchor := if w.anchor = .absent then .header else w.anchor
    takenCount := if w.anchor = .absent then 0 else w.takenCount
    finishedCount := if w.anchor = .absent then 0 else w.finishedCount
    accesses := withHeaderWrite w.accesses ++ [.linkRead] }

theorem attachGood_eq (a : Addr) (data : Table Byte 64) (s : State) :
    attachGood a data s = (postWholePage s).setWalker (s.walker.attachedAt a data) := by
  unfold attachGood
  rw [enterWatching_eq]
  by_cases habsent : s.walker.anchor = .absent <;> by_cases hwaits : headerWriteWaits s.walker.accesses = true <;>
    simp [habsent, hwaits, postWholePage, State.placeHeaderWrite, State.place, State.setWalker, State.setWriter,
      withHeaderWrite, Walker.attachedAt]

/-- An idle writer begins with the first slot posted, its serial one higher (R178). -/
theorem beginSlotWrite_begins {u : State} {x : Slot} {rest : List Slot} {page : Board}
    (hatt : u.walker.state.attached = true) (hcur : u.writer.current = none) (hposting : u.writer.posting = x :: rest)
    (hboard : u.walker.board = some page) :
    (beginSlotWrite u).writer =
      { u.writer.raiseSerial x with
        posting := rest
        current :=
          some { slot := x, parts := slotParts page.statusPage (u.writer.raiseSerial x) x u, orphan := false } } := by
  rw [beginSlotWrite, if_pos hatt, hcur, hposting, hboard]
  cases x <;> rfl

theorem serialOf_raiseSerial_self (w : Writer) (p : PortNo) :
    (w.raiseSerial (.port p)).serialOf (.port p) = (w.serialOf (.port p) + 1) % 2 ^ 16 := by
  simp [Writer.raiseSerial, Writer.serialOf, Table.get_set_self, BitVec.toNat_add]

theorem serialOf_congr (w : Writer) (l : List Slot) (o : Option SlotWrite) (x : Slot) :
    ({ w with posting := l, current := o } : Writer).serialOf x = w.serialOf x := by
  cases x <;> rfl

/-- A writer with a write in progress begins none. -/
theorem beginSlotWrite_busy {u : State} (h : u.writer.current ≠ none) : beginSlotWrite u = u := by
  unfold beginSlotWrite
  split
  · split
    · exact absurd ‹_› h
    · rfl
  · rfl

/-- The Status Writer of an attached walker as the event ends, unless a detach does. -/
theorem settle_writer_begins {v : State} (hfinish : finishDetach v = v) (hatt : v.walker.state.attached = true) :
    (settle v).writer = (beginSlotWrite v).writer := by
  rw [settle, hfinish, show silenceWriter v = v from if_pos hatt, beginAccess_writer]

theorem not_detaching_of_silent {w : WalkerState} (h : w.attached = false) : w ≠ .detaching := by
  rintro rfl; cases h

/-- The slots of the Status Page that a good header posts (R180): all, the first begun at once by an idle writer. -/
theorem wholePage_posted {v : State} (hwatch : v.walker.state = .watching) (hboard : v.walker.board.isSome = true)
    (hwriter : v.writer = { s.writer with posting := allSlots }) :
    (s.writer.current ≠ none → (settle v).writer = { s.writer with posting := allSlots }) ∧
      (s.writer.current = none →
        (settle v).writer.posting = allSlots.tail ∧ (settle v).writer.current.map (·.slot) = some (.port 0) ∧
          (settle v).writer.serialOf (.port 0) = (s.writer.serialOf (.port 0) + 1) % 2 ^ 16 ∧
          ∀ x, x ≠ .port 0 → (settle v).writer.serialOf x = s.writer.serialOf x) := by
  have hatt : v.walker.state.attached = true := by rw [hwatch]; rfl
  rw [settle_writer_begins (finishDetach_of_ne (by rw [hwatch]; exact WalkerState.noConfusion)) hatt]
  refine ⟨fun hbusy => ?_, fun hidle => ?_⟩
  · rw [beginSlotWrite_busy (by rw [hwriter]; exact hbusy), hwriter]
  · obtain ⟨page, hpage⟩ := Option.isSome_iff_exists.1 hboard
    have hserial (x : Slot) : v.writer.serialOf x = s.writer.serialOf x := by
      rw [hwriter]; exact serialOf_congr s.writer allSlots s.writer.current x
    rw [beginSlotWrite_begins (rest := allSlots.tail) hatt (by rw [hwriter]; exact hidle) (by rw [hwriter]; rfl) hpage]
    refine ⟨rfl, rfl, ?_, fun x hx => ?_⟩ <;> rw [serialOf_congr]
    · rw [serialOf_raiseSerial_self, hserial]
    · rw [serialOf_raiseSerial_ne _ hx, hserial]

/-- Settles O36: by whether the header is good. -/
theorem headerReadsAttachOrHalt : Obligations.HeaderReadsAttachOrHalt := by
  refine ⟨rfl, ?_⟩
  rintro b a data s h ⟨hcur, hacc, hhalt⟩ hatt
  refine ⟨_, exec_headerRead ((readCounts_iff _ _).2 ⟨hhalt, not_detaching_of_silent hatt⟩) hcur hacc data, ?_⟩
  by_cases hgood : headerGood data = true
  · rw [headerRead, if_pos hgood, attachGood_eq]
    obtain ⟨hboard, hinflight⟩ := BoardFrame.ends (s := s)
      (v := (postWholePage (offBus s)).setWalker ((offBus s).walker.attachedAt a data)) rfl
    exact ⟨hboard, hinflight, fun _ =>
      ⟨settle_regs_of_attached WalkerState.noConfusion,
        settle_begins (finishDetach_of_ne WalkerState.noConfusion) (mayBegin_of_attached rfl _) rfl,
        wholePage_posted rfl rfl rfl⟩,
      fun hbad => absurd (hgood.symm.trans hbad) Bool.noConfusion⟩
  · rw [headerRead, if_neg hgood]
    obtain ⟨hboard, hinflight⟩ := (haltWalker_frame .badHeader (offBus_frame s)).ends
    exact ⟨hboard, hinflight, fun hyes => absurd hyes hgood, fun _ =>
      ⟨settle_halts .badHeader rfl rfl rfl, settle_halt_current .., settle_halt_accesses ..⟩⟩

end Sys2Proof.Machine
end

section
/-! The writes of header and slots, and failed accesses (O48, O49). -/

set_option Elab.async false

namespace Sys2Proof.Machine

variable {b : BusAccess} {s : State}

/-! ## The end of a detach (R125) -/

/-- The walker after a detach with nothing left (R125). -/
def Walker.detached (w : Walker) : Walker :=
  { w with state := .detached, anchor := .absent, copy := none, lookAgain := false }

/-- Nothing is left to do: the In-flight Table and the access list are empty (R125). -/
theorem finishDetach_ends {v : State} (hd : v.walker.state = .detaching) (hnone : v.inflight.items.all (·.isNone) = true)
    (hacc : v.walker.accesses = []) (hcur : v.walker.current = none) :
    settle v = ((v.setWalker v.walker.detached).raise .detached).setWriter v.writer.silenced := by
  have hfinish : finishDetach v = (v.setWalker v.walker.detached).raise .detached := if_pos ⟨hd, hnone, hacc, hcur⟩
  have hbegin (w : Writer) : beginAccess (((v.setWalker v.walker.detached).raise .detached).setWriter w) =
      ((v.setWalker v.walker.detached).raise .detached).setWriter w := by
    unfold beginAccess
    rw [show (((v.setWalker v.walker.detached).raise .detached).setWriter w).walker.accesses = [] from hacc]
    split
    · contradiction
    · rfl
  rw [settle, hfinish]
  exact hbegin _

/-- A detach is not over (R125). -/
theorem finishDetach_waits {v : State}
    (h : v.walker.state ≠ .detaching ∨ v.walker.accesses ≠ [] ∨ v.inflight.items.any (·.isSome) = true ∨
      v.walker.current ≠ none) : finishDetach v = v := by
  refine if_neg ?_
  rintro ⟨hd, hnone, hacc, hcur⟩
  rcases h with h | h | h | h
  · exact h hd
  · exact h hacc
  · obtain ⟨o, ho, hsome⟩ := List.any_eq_true.1 h
    have := List.all_eq_true.1 hnone o ho
    cases o <;> simp at hsome this
  · exact h hcur

/-- An event whose body leaves walker state, board and Status Writer alone, and ends no detach: what is due stays due,
and nothing more than the next access begins. -/
theorem settle_waits {v : State} (h : s.settled = true) (hfinish : finishDetach v = v)
    (hstate : v.walker.state = s.walker.state) (hboard : v.walker.board = s.walker.board)
    (hwriter : v.writer = s.writer) :
    (settle v).regs = v.regs ∧ (settle v).writer = s.writer ∧ WalkerKeptButAccesses v (settle v) ∧
      (settle v).walker.due = v.walker.due := by
  have hwalker : (settle v).walker = (beginAccess (beginSlotWrite (silenceWriter v))).walker := by
    rw [settle, hfinish]
  have hkept := beginAccess_walkerKept (beginSlotWrite (silenceWriter v))
  refine ⟨by simp [settle, hfinish], settle_writer_same h hfinish (by rw [hstate]) hboard hwriter, ?_, ?_⟩
  · unfold WalkerKeptButAccesses at hkept ⊢
    rw [hwalker, hkept]
    simp
  · rw [hwalker, beginAccess_due]; simp

/-! ## Slot writes (R178, R179) -/

/-- A writer with nothing posted and nothing in progress stays as it is. -/
theorem slotWriter_rests {v : State} (hposting : v.writer.posting = []) (hcur : v.writer.current = none) :
    (beginSlotWrite (silenceWriter v)).writer = v.writer := by
  have hsilence : (silenceWriter v).writer = v.writer := by
    unfold silenceWriter
    split
    · rfl
    · rw [setWriter_writer, hcur, Option.map_none, ← hposting, ← hcur]
  rcases beginSlotWrite_writer (silenceWriter v) with hkept | ⟨x, rest, hmore, -⟩
  · rw [hkept, hsilence]
  · rw [hsilence, hposting] at hmore; cases hmore

/-- The state in which the slot write in progress has landed (R179). -/
def slotLanded (w : SlotWrite) (s : State) : State :=
  landParts w.parts (s.quiet.setWriter { s.writer with current := none })

theorem exec_slotWrite {w : SlotWrite} (hcur : s.writer.current = some w) :
    exec .slotWriteComplete s = .next (settle (slotLanded w s)) := by
  change execSlotWriteComplete s = _
  rw [execSlotWriteComplete, hcur]
  rfl

/-- A slot write that has landed leaves the walker as it is, and the writer silent or at its next slot. -/
theorem slotLanded_ends {w : SlotWrite} (h : s.settled = true) :
    BoardKept s (settle (slotLanded w s)) ∧ RegsKept s (settle (slotLanded w s)) ∧
      (settle (slotLanded w s)).writer = (beginSlotWrite (silenceWriter (slotLanded w s))).writer := by
  obtain ⟨hwalker, hregs, hinflight⟩ := settle_of_settled (t := slotLanded w s) h rfl rfl
  exact ⟨⟨hwalker, hinflight⟩, hregs, settle_writer_of_settled h rfl rfl⟩

/-- A writer that writes slots has an attached walker: a silent one has nothing posted (R180). -/
theorem attached_of_posting {x : Slot} {rest : List Slot} (h : s.settled = true) (hp : s.writer.posting = x :: rest) :
    s.walker.state.attached = true := by
  by_contra hatt
  rw [posting_nil_of_silent h (by simpa using hatt)] at hp
  cases hp

/-- Settles O48: what is left to do decides whether the walker goes on or is detached, and what is posted whether the
writer goes on. -/
theorem headerAndSlotWritesLand : Obligations.HeaderAndSlotWritesLand := by
  refine ⟨fun b s h hcur hacc => ?_, fun w s h hcur => ?_⟩
  · have hexec : exec .headerWriteComplete s = .next (settle (landParts b.parts (offBus s))) := by
      change execHeaderWriteComplete s = _
      simp [execHeaderWriteComplete, hcur, hacc, event_eq, offBus]
    have hacts : (landParts b.parts (offBus s)).acts = b.parts.map fun x => .busWrite x.1 x.2 := List.nil_append _
    obtain ⟨hboard, hinflight⟩ := BoardFrame.ends (s := s) (v := landParts b.parts (offBus s)) rfl
    refine ⟨_, hexec, hboard, hinflight, (settle_acts _).trans hacts, fun hmore => ?_, fun hd hacc hnone => ?_⟩
    · exact settle_waits (v := landParts b.parts (offBus s)) h
        (finishDetach_waits (hmore.imp_right (.imp_right .inl))) rfl rfl rfl
    · rw [finishDetach_ends (v := landParts b.parts (offBus s)) hd hnone hacc rfl]
      exact ⟨rfl, rfl, rfl⟩
  · obtain ⟨hboard, hregs, hwriter⟩ := slotLanded_ends (w := w) h
    have hframe := BoardFrame.ends (s := s) (v := slotLanded w s) rfl
    refine ⟨_, exec_slotWrite hcur, hframe.1, hboard, hregs, (settle_acts _).trans (List.nil_append _),
      fun hnil => ?_, fun x rest page hposting hpage => ?_⟩
    · exact hwriter.trans (slotWriter_rests (v := slotLanded w s) hnil rfl)
    · have hatt := attached_of_posting h hposting
      rw [hwriter, show silenceWriter (slotLanded w s) = slotLanded w s from if_pos hatt,
        beginSlotWrite_begins (u := slotLanded w s) hatt rfl hposting hpage]
      cases x <;> rfl

/-! ## Failed accesses (R126, R127) -/

/-- The walker's list after a failed access: a write is kept, a read is not (R127). -/
def keptAfter (a : Access) (l : List Access) : List Access := if a.isRead then l else keepWrite a l

/-- The state in which the failed access is off the bus, and kept if it is a write (R127). -/
def failedKept (b : BusAccess) (s : State) : State :=
  (offBus s).setWalker { (offBus s).walker with accesses := keptAfter b.access s.walker.accesses }

theorem walkerFails_eq (b : BusAccess) (s : State) :
    walkerFails b s.quiet = if b.atHalt then failedKept b s else haltWalker .bus (failedKept b s) := by
  unfold walkerFails failedKept keptAfter
  cases b.access.isRead <;> cases b.atHalt <;> rfl

theorem exec_walkerFails (hcur : s.walker.current = some b) :
    exec (.accessFailure .walker) s =
      .next (settle (if b.atHalt then failedKept b s else haltWalker .bus (failedKept b s))) := by
  change execAccessFailure .walker s = _
  rw [← walkerFails_eq, execAccessFailure, hcur]
  rfl

/-- The writes kept on the list of a halted walker, a failed one ahead (R126, R127). -/
theorem keptAfter_writes (a : Access) (l : List Access) :
    (keptAfter a l).filter (fun x => !x.isRead) = (if a.isRead then [] else [a]) ++ l.filter fun x => !x.isRead := by
  unfold keptAfter
  split
  · rfl
  · rename_i hread
    have hheader (c : Addr) : (Access.headerRead c).isRead = true := rfl
    rw [Bool.not_eq_true] at hread
    unfold keepWrite
    split <;> simp [hread, hheader]

theorem keptAfter_of_noHeaderRead (a : Access) {l : List Access}
    (h : ∀ x ∈ l, ∀ c, x ≠ .headerRead c) : keptAfter a l = (if a.isRead then [] else [a]) ++ l := by
  unfold keptAfter
  split
  · rfl
  · unfold keepWrite
    split
    · exact absurd rfl (h _ List.mem_cons_self _)
    · rfl

theorem no_headerRead {w : Walker} (h : w.hasHeaderRead = false) : ∀ x ∈ w.accesses, ∀ c, x ≠ .headerRead c := by
  rintro x hx c rfl
  simp only [Walker.hasHeaderRead, Bool.or_eq_false_iff, List.any_eq_false] at h
  exact absurd rfl (h.1 _ hx)

/-- The state in which a failed slot write is off the bus. -/
def slotFailed (s : State) : State := s.quiet.setWriter { s.writer with current := none }

theorem exec_writerFails {w : SlotWrite} (hcur : s.writer.current = some w) :
    exec (.accessFailure .statusWriter) s =
      .next (settle (if w.orphan then slotFailed s else haltWalker .bus (slotFailed s))) := by
  change execAccessFailure .statusWriter s = _
  rw [execAccessFailure, hcur]
  rfl

/-- Settles O49: an access that failed halts the walker, unless it was in progress at an entry to HALTED, or the slot
write at one to DETACHED too. -/
theorem failedAccessesHaltWithBus : Obligations.FailedAccessesHaltWithBus := by
  refine ⟨fun b s h hcur => ?_, fun w s h hcur => ?_⟩
  · refine ⟨_, exec_walkerFails hcur, ?_⟩
    have hframe : BoardFrame s (failedKept b s) := rfl
    cases hhalt : b.atHalt
    · rw [if_neg Bool.false_ne_true]
      obtain ⟨hboard, hinflight⟩ := (haltWalker_frame .bus hframe).ends
      refine ⟨hboard, hinflight, settle_acts _, fun _ => ⟨settle_halts .bus rfl rfl rfl, settle_halt_current .., ?_⟩,
        fun _ hno => absurd hno Bool.false_ne_true⟩
      rw [settle_halt_accesses]
      exact keptAfter_writes ..
    · rw [if_pos rfl]
      obtain ⟨hboard, hinflight⟩ := hframe.ends
      refine ⟨hboard, hinflight, settle_acts _, fun hno => absurd hno.symm Bool.false_ne_true, fun r _ hst => ?_⟩
      have hne : (failedKept b s).walker.state ≠ .detaching := by
        change s.walker.state ≠ _
        rw [hst]
        exact WalkerState.noConfusion
      obtain ⟨hregs, hwriter, hwalker, hdue⟩ := settle_waits h (finishDetach_of_ne hne) rfl rfl rfl
      refine ⟨hregs, hwriter, hwalker, fun hnone => hdue.trans ?_⟩
      exact keptAfter_of_noHeaderRead b.access (no_headerRead hnone)
  · refine ⟨_, exec_writerFails hcur, ?_⟩
    have hframe : BoardFrame s (slotFailed s) := rfl
    cases horphan : w.orphan
    · rw [if_neg Bool.false_ne_true]
      obtain ⟨hboard, hinflight⟩ := (haltWalker_frame .bus hframe).ends
      refine ⟨hboard, hinflight, settle_acts _, fun hno => absurd hno Bool.false_ne_true, fun _ => ?_⟩
      rw [settle_haltWalker]
      exact ⟨rfl, rfl, rfl, rfl, rfl, rfl, rfl, rfl, rfl⟩
    · rw [if_pos rfl]
      obtain ⟨hboard, hinflight⟩ := hframe.ends
      obtain ⟨hwalker, hregs, -⟩ := settle_of_settled (t := slotFailed s) h rfl rfl
      exact ⟨hboard, hinflight, settle_acts _, fun _ => ⟨hregs, hwalker⟩, fun hno => absurd hno.symm Bool.false_ne_true⟩

end Sys2Proof.Machine
end

section
/-! ATTACH and DETACH (O50, O51). -/

set_option Elab.async false

namespace Sys2Proof.Machine

variable {s : State} {w : Word}

/-! ## A walker that is left as it is -/

/-- With an access in progress none begins, as an event ends that finishes no detach (R117). -/
theorem settle_walker_busy {v : State} (hfinish : finishDetach v = v) (hcur : v.walker.current ≠ none) :
    (settle v).walker = v.walker := by
  have hwalker : (beginSlotWrite (silenceWriter v)).walker = v.walker := by simp
  have hsome : (beginSlotWrite (silenceWriter v)).walker.current ≠ none := by rw [hwalker]; exact hcur
  rw [settle, hfinish]
  unfold beginAccess
  split
  · exact absurd ‹_› hsome
  · exact hwalker

/-- The writer of a settled state is silent already where the walker is not attached (R180). -/
theorem silenced_of_settled (h : s.settled = true) (hatt : s.walker.state.attached = false) :
    s.writer.silenced = s.writer := by
  have hsilence : silenceWriter s = s.setWriter s.writer.silenced :=
    if_neg (by rw [hatt]; exact Bool.false_ne_true)
  rw [silenceWriter_of_settled h] at hsilence
  exact (congrArg State.writer hsilence).symm

/-! ## CONTROL (R183) -/

/-- The state in which the fields of a CONTROL write have been stored (R183). -/
def controlStored (w : Word) (s : State) : State := s.quiet.setRegs (controlRegs w s.regs)

/-- RIG_RESET alone acts where it is written (R183; log entry 10). -/
theorem exec_attach_rigReset (h : w.getLsbD 3 = true) : exec (.attach w) s = exec (.rigReset w) s := by
  change event (writeControl (w ||| 0x001)) s = event (writeControl (w ||| 0x008)) s
  rw [event_eq, event_eq, writeControl, writeControl, if_pos (by simp [h]), if_pos (by simp)]

theorem exec_detach_rigReset (h : w.getLsbD 3 = true) : exec (.detach w) s = exec (.rigReset w) s := by
  change event (writeControl (w ||| 0x002)) s = event (writeControl (w ||| 0x008)) s
  rw [event_eq, event_eq, writeControl, writeControl, if_pos (by simp [h]), if_pos (by simp)]

/-- The bits of a CONTROL write but `k` (log entry 10). -/
def sameBits (k : Nat) (w v : Word) : Prop := ∀ i ∈ [0, 1, 2, 3, 8, 9, 10], i ≠ k → v.getLsbD i = w.getLsbD i

theorem controlRegs_congr {k : Nat} {v : Word} (hk : k < 2) (h : sameBits k w v) (r : Registers) :
    controlRegs v r = controlRegs w r := by
  unfold controlRegs
  rw [h 2 (by simp) (by omega), h 8 (by simp) (by omega), h 9 (by simp) (by omega), h 10 (by simp) (by omega)]

theorem writeControl_fields {v : Word} (h : v.getLsbD 3 = false) (s : State) :
    writeControl v s.quiet =
      match v.getLsbD 0, v.getLsbD 1 with
      | true, false => attachWalker (controlStored v s)
      | false, true => detachWalker (controlStored v s)
      | _, _ => controlStored v s := by
  rw [writeControl, if_neg (by rw [h]; exact Bool.false_ne_true), controlFields]
  rfl

theorem exec_attach (h : w.getLsbD 3 = false) :
    exec (.attach w) s =
      .next (settle (if w.getLsbD 1 then controlStored w s else attachWalker (controlStored w s))) := by
  have hbits : sameBits 0 w (w ||| 0x001) := by simp [sameBits]
  have hown : (w ||| 0x001).getLsbD 0 = true := by simp
  have hstored : controlStored (w ||| 0x001) s = controlStored w s := by
    rw [controlStored, controlRegs_congr (by decide) hbits]; rfl
  change event (writeControl (w ||| 0x001)) s = _
  rw [event_eq, writeControl_fields ((hbits 3 (by simp) (by decide)).trans h), hown,
    hbits 1 (by simp) (by decide), hstored]
  cases w.getLsbD 1 <;> rfl

theorem exec_detach (h : w.getLsbD 3 = false) :
    exec (.detach w) s =
      .next (settle (if w.getLsbD 0 then controlStored w s else detachWalker (controlStored w s))) := by
  have hbits : sameBits 1 w (w ||| 0x002) := by simp [sameBits]
  have hown : (w ||| 0x002).getLsbD 1 = true := by simp
  have hstored : controlStored (w ||| 0x002) s = controlStored w s := by
    rw [controlStored, controlRegs_congr (by decide) hbits]; rfl
  change event (writeControl (w ||| 0x002)) s = _
  rw [event_eq, writeControl_fields ((hbits 3 (by simp) (by decide)).trans h), hown,
    hbits 0 (by simp) (by decide), hstored]
  cases w.getLsbD 0 <;> rfl

/-- A CONTROL write that hands nothing to the walker changes registers alone. -/
theorem controlStored_ends (w : Word) (h : s.settled = true) :
    (settle (controlStored w s)).walker = s.walker ∧ (settle (controlStored w s)).writer = s.writer ∧
      (settle (controlStored w s)).regs = controlRegs w s.regs := by
  obtain ⟨hwalker, hregs, -⟩ := settle_of_settled (t := controlStored w s) h rfl rfl
  exact ⟨hwalker, settle_writer_kept (.of_boardKept ⟨rfl, rfl⟩) h rfl, hregs⟩

/-! ## ATTACH (R115, R116) -/

theorem attachWalker_stands (h : (s.walker.state.attached || s.walker.hasHeaderRead) = true) : attachWalker s = s := by
  unfold attachWalker
  dsimp only
  cases hst : s.walker.state <;> simp_all [WalkerState.attached]

theorem attachWalker_judges (hatt : s.walker.state.attached = false) (hnone : s.walker.hasHeaderRead = false) :
    attachWalker s =
      if boardBaseBad s.regs.boardBase then haltWalker .badHeader s
      else s.setWalker { s.walker with accesses := .headerRead s.regs.boardBase :: s.walker.accesses } := by
  unfold attachWalker
  dsimp only
  cases hst : s.walker.state <;> simp_all [WalkerState.attached]

theorem boardBase_toNat (r : Registers) : r.boardBase.toNat = r.boardHi.toNat * 2 ^ 32 + r.boardLo.toNat := by
  rw [Registers.boardBase, BitVec.toNat_append, ← Nat.shiftLeft_add_eq_or_of_lt r.boardLo.isLt, Nat.shiftLeft_eq]

theorem boardBaseBad_iff (a : Addr) : boardBaseBad a = true ↔ a.toNat = 0 ∨ a.toNat % 64 ≠ 0 := by
  simp [boardBaseBad]

/-- The state in which a header read stands at the head of the list (R116). -/
def headerAsked (a : Addr) (w : Word) (s : State) : State :=
  (controlStored w s).setWalker { s.walker with accesses := .headerRead a :: s.walker.accesses }

/-- A header read begins at once where nothing is in progress, and stands ahead of the kept writes. -/
theorem headerAsked_ends (a : Addr) (w : Word) (h : s.settled = true) (hatt : s.walker.state.attached = false) :
    (settle (headerAsked a w s)).writer = s.writer ∧ (settle (headerAsked a w s)).regs = controlRegs w s.regs ∧
      WalkerKeptButAccesses s (settle (headerAsked a w s)) ∧
      (s.walker.current = none →
        WalkerNow s.walker (.headerRead a :: s.walker.accesses) (settle (headerAsked a w s))) ∧
      (s.walker.current ≠ none →
        (settle (headerAsked a w s)).walker.current = s.walker.current ∧
          (settle (headerAsked a w s)).walker.accesses = .headerRead a :: s.walker.accesses) := by
  have hfinish : finishDetach (headerAsked a w s) = headerAsked a w s :=
    finishDetach_of_ne (not_detaching_of_silent hatt)
  obtain ⟨hregs, hwriter, hwalker, -⟩ := settle_waits (v := headerAsked a w s) h hfinish rfl rfl rfl
  refine ⟨hwriter, hregs, hwalker, fun hcur => ?_, fun hcur => ?_⟩
  · exact settle_begins (v := headerAsked a w s) hfinish (Bool.or_true _) hcur
  · rw [settle_walker_busy (v := headerAsked a w s) hfinish hcur]
    exact ⟨rfl, rfl⟩

/-- Settles O50: by RIG_RESET, by whether the walker takes an ATTACH, and by BOARD_BASE. -/
theorem attachReadsTheHeader : Obligations.AttachReadsTheHeader := by
  intro w s h base stands
  by_cases hrig : w.getLsbD 3 = true
  · exact ⟨_, (exec_attach_rigReset hrig).trans rfl, fun _ => rfl, fun hno => absurd (hrig.symm.trans hno) Bool.noConfusion⟩
  rw [Bool.not_eq_true] at hrig
  refine ⟨_, exec_attach hrig, fun hno => absurd (hno.symm.trans hrig) Bool.noConfusion, fun _ => ?_⟩
  have hbase : (controlStored w s).regs.boardBase.toNat = base := boardBase_toNat _
  cases hstands : stands
  · have hparts : s.walker.state.attached = false ∧ s.walker.hasHeaderRead = false ∧ w.getLsbD 1 = false := by
      simpa [stands, and_assoc] using hstands
    obtain ⟨hatt, hnone, hdetach⟩ := hparts
    rw [hdetach, if_neg Bool.false_ne_true, attachWalker_judges (s := controlStored w s) hatt hnone]
    by_cases hbad : boardBaseBad (controlStored w s).regs.boardBase = true
    · rw [if_pos hbad]
      rw [boardBaseBad_iff, hbase] at hbad
      obtain ⟨hboard, hinflight⟩ := (haltWalker_frame .badHeader (s := s) (u := controlStored w s) rfl).ends
      refine ⟨hboard, hinflight, ?_, nofun, fun _ _ => ?_, fun _ h0 h64 => ?_⟩
      · rw [settle_haltWalker]; exact silenced_of_settled h hatt
      · rw [settle_haltWalker]; exact ⟨rfl, rfl, rfl, rfl⟩
      · omega
    · rw [if_neg hbad]
      rw [boardBaseBad_iff, hbase] at hbad
      have haddr : (controlStored w s).regs.boardBase = BitVec.ofNat 64 base := by
        rw [← hbase, BitVec.ofNat_toNat, BitVec.setWidth_eq]
      rw [haddr]
      obtain ⟨hboard, hinflight⟩ := BoardFrame.ends (s := s) (v := headerAsked (BitVec.ofNat 64 base) w s) rfl
      obtain ⟨hwriter, hregs, hrest⟩ := headerAsked_ends (BitVec.ofNat 64 base) w h hatt
      exact ⟨hboard, hinflight, hwriter, nofun, fun _ hno => absurd hno hbad, fun _ _ _ => ⟨hregs, hrest⟩⟩
  · have hbody : (if w.getLsbD 1 then controlStored w s else attachWalker (controlStored w s)) = controlStored w s := by
      cases hdetach : w.getLsbD 1
      · rw [if_neg Bool.false_ne_true]
        have hstays : (s.walker.state.attached || s.walker.hasHeaderRead) = true := by
          simpa only [stands, hdetach, Bool.or_false] using hstands
        exact attachWalker_stands (s := controlStored w s) hstays
      · rfl
    rw [hbody]
    obtain ⟨hboard, hinflight⟩ := BoardFrame.ends (s := s) (v := controlStored w s) rfl
    obtain ⟨hwalker, hwriter, hregs⟩ := controlStored_ends w h
    exact ⟨hboard, hinflight, hwriter, fun _ => ⟨hwalker, hregs⟩, nofun, nofun⟩

/-! ## DETACH (R124, R125) -/

theorem settle_regs_of_unfinished {v : State} (hfinish : finishDetach v = v) : (settle v).regs = v.regs := by
  simp [settle, hfinish]

/-- An attached walker whose list and access in progress are those of a settled state begins nothing (R117). -/
theorem settle_walker_rests {v : State} (h : s.settled = true) (hatt : s.walker.state.attached = true)
    (hfinish : finishDetach v = v) (hacc : v.walker.accesses = s.walker.accesses)
    (hcur : v.walker.current = s.walker.current) : (settle v).walker = v.walker := by
  have hwalker : (beginSlotWrite (silenceWriter v)).walker = v.walker := by simp
  rw [settle, hfinish]
  unfold beginAccess
  split
  · rename_i a rest hnone hlist
    rw [hwalker, hcur] at hnone
    rw [hwalker, hacc] at hlist
    simp [State.settled, hnone, hlist, Walker.mayBegin, hatt] at h
  · exact hwalker

/-- The walker as it takes a DETACH (R124). -/
def Walker.detaching (w : Walker) : Walker :=
  { w with state := .detaching, lookAgain := false, copy := if w.state = .stalled then none else w.copy }

theorem detachWalker_takes (hatt : s.walker.state.attached = true) (hd : s.walker.state ≠ .detaching) :
    detachWalker s = s.setWalker s.walker.detaching := by
  unfold detachWalker Walker.detaching
  cases hst : s.walker.state <;> simp_all [WalkerState.attached]

theorem detachWalker_stands (h : s.walker.state.attached = false ∨ s.walker.state = .detaching) :
    detachWalker s = s := by
  unfold detachWalker
  cases hst : s.walker.state <;> simp_all [WalkerState.attached]

/-- Nothing is in flight and no access waits (R125). -/
def State.idle (s : State) : Bool := s.inflight.items.all (·.isNone) && s.walker.accesses.isEmpty

theorem idle_iff (s : State) : s.idle = true ↔ s.inflight.items.all (·.isNone) = true ∧ s.walker.accesses = [] := by
  simp [State.idle]

theorem busy_of_not_idle (h : s.idle = false) :
    s.walker.accesses ≠ [] ∨ s.inflight.items.any (·.isSome) = true := by
  rw [State.idle, Bool.and_eq_false_iff] at h
  refine h.symm.imp (fun hacc hnil => ?_) fun hnone => ?_
  · rw [hnil] at hacc; cases hacc
  · obtain ⟨o, ho, hsome⟩ := List.all_eq_false.1 hnone
    exact List.any_eq_true.2 ⟨o, ho, by cases o <;> simp at hsome ⊢⟩

/-- The detach has ended (R125). -/
def DetachEnded (s t : State) : Prop :=
  t.walker =
      { s.walker with
        state := .detached, anchor := .absent, copy := none, lookAgain := false, current := none } ∧
    t.writer =
      { s.writer with
        posting := [], current := s.writer.current.map fun w => { w with orphan := true } }

/-- The state in which a DETACH has been taken (R124). -/
def detachTaken (w : Word) (s : State) : State := (controlStored w s).setWalker s.walker.detaching

theorem detachTaken_ends (h : s.settled = true) (hatt : s.walker.state.attached = true) :
    (s.idle = true → s.walker.current = none →
      DetachEnded s (settle (detachTaken w s)) ∧
        (settle (detachTaken w s)).regs = { controlRegs w s.regs with attn := s.regs.attn ||| 0x40 }) ∧
      (s.idle = false ∨ s.walker.current ≠ none →
        (settle (detachTaken w s)).writer = s.writer ∧ (settle (detachTaken w s)).regs = controlRegs w s.regs ∧
          (settle (detachTaken w s)).walker = s.walker.detaching) := by
  refine ⟨fun hidle hcur => ?_, fun hbusy => ?_⟩
  · obtain ⟨hnone, hacc⟩ := (idle_iff s).1 hidle
    rw [finishDetach_ends (v := detachTaken w s) rfl hnone hacc hcur]
    refine ⟨⟨?_, rfl⟩, rfl⟩
    rw [setWriter_walker, raise_walker, setWalker_walker, ← hcur]
    rfl
  · have hfinish : finishDetach (detachTaken w s) = detachTaken w s := by
      refine finishDetach_waits (.inr ?_)
      rcases hbusy with hidle | hcur
      · exact (busy_of_not_idle hidle).imp_right .inl
      · exact .inr (.inr hcur)
    exact ⟨settle_writer_same h hfinish hatt.symm rfl rfl, settle_regs_of_unfinished hfinish,
      settle_walker_rests h hatt hfinish rfl rfl⟩

/-- The data of a read is discarded in DETACHING (R124). -/
theorem exec_read_discarded {b : BusAccess} {a : Addr} {n : Nat} {link : Addr} {data : Table Byte 64}
    {list : List Byte} {c : Instr} (hd : s.walker.state = .detaching) (hlen : list.length = 4 * n)
    (hc : (s.reading b .linkRead ∧ c = .linkReadComplete link) ∨
      (s.reading b (.blockRead a) ∧ c = .blockReadComplete data) ∨
      (s.reading b (.listRead a n) ∧ c = .profileListReadComplete list)) :
    exec c s = .next (settle (offBus s)) := by
  have hcounts : readCounts s.quiet b = false := by
    rw [Bool.eq_false_iff, Ne, readCounts_iff]
    exact fun hno => hno.2 hd
  rcases hc with ⟨⟨hcur, hacc, -⟩, rfl⟩ | ⟨⟨hcur, hacc, -⟩, rfl⟩ | ⟨⟨hcur, hacc, -⟩, rfl⟩
  · change execLinkReadComplete link s = _
    simp [execLinkReadComplete, hcur, hacc, event_eq, hcounts, offBus]
  · change execBlockReadComplete data s = _
    simp [execBlockReadComplete, hcur, hacc, event_eq, hcounts, offBus]
  · change execProfileListReadComplete list s = _
    simp [execProfileListReadComplete, hcur, hacc, hlen, event_eq, hcounts, offBus]

/-- Settles O51: a DETACH by whether it is taken and what is left to do, RIG_RESET, and a read in DETACHING. -/
theorem detachFinishesWhatIsDue : Obligations.DetachFinishesWhatIsDue := by
  unfold Obligations.DetachFinishesWhatIsDue
  intro idle ended
  refine ⟨fun w s h hrig => ?_, fun w s hrig => exec_detach_rigReset hrig,
    fun b a n link data list c s h hd hlen hc => ?_⟩
  · intro takes
    refine ⟨_, exec_detach hrig, ?_⟩
    cases htakes : takes
    · have hbody : (if w.getLsbD 0 then controlStored w s else detachWalker (controlStored w s)) =
          controlStored w s := by
        cases hattach : w.getLsbD 0
        · have hstays : s.walker.state.attached = false ∨ s.walker.state = .detaching := by
            have hno : (s.walker.state.attached && s.walker.state != .detaching && !w.getLsbD 0) = false := htakes
            rw [hattach, Bool.not_false, Bool.and_true, Bool.and_eq_false_iff] at hno
            simpa using hno
          exact detachWalker_stands (s := controlStored w s) hstays
        · rfl
      rw [hbody]
      obtain ⟨hboard, hinflight⟩ := BoardFrame.ends (s := s) (v := controlStored w s) rfl
      obtain ⟨hwalker, hwriter, hregs⟩ := controlStored_ends w h
      exact ⟨hboard, hinflight, fun _ => ⟨hwalker, hwriter, hregs⟩, nofun, nofun⟩
    · have hparts : (s.walker.state.attached = true ∧ s.walker.state ≠ .detaching) ∧ w.getLsbD 0 = false := by
        simpa [takes] using htakes
      obtain ⟨⟨hatt, hd⟩, hattach⟩ := hparts
      rw [hattach, if_neg Bool.false_ne_true, detachWalker_takes (s := controlStored w s) hatt hd]
      obtain ⟨hboard, hinflight⟩ := BoardFrame.ends (s := s) (v := detachTaken w s) rfl
      obtain ⟨hended, hwaits⟩ := detachTaken_ends (w := w) h hatt
      exact ⟨hboard, hinflight, nofun, fun _ => hended, fun _ => hwaits⟩
  · obtain ⟨hboard, hinflight⟩ := BoardFrame.ends (offBus_frame s)
    refine ⟨_, exec_read_discarded hd hlen hc, hboard, hinflight, fun hidle => ?_, fun hidle => ?_⟩
    · obtain ⟨hnone, hacc⟩ := (idle_iff s).1 hidle
      rw [finishDetach_ends (v := offBus s) hd hnone hacc rfl]
      exact ⟨⟨rfl, rfl⟩, rfl⟩
    · have hfinish : finishDetach (offBus s) = offBus s :=
        finishDetach_waits (.inr ((busy_of_not_idle hidle).imp_right .inl))
      obtain ⟨hregs, hwriter, -, -⟩ := settle_waits (v := offBus s) h hfinish rfl rfl rfl
      have hatt : (offBus s).walker.state.attached = true := by
        rw [offBus_walker, hd]; rfl
      exact ⟨hregs, hwriter, settle_begins (v := offBus s) hfinish (mayBegin_of_attached hatt _) rfl⟩

end Sys2Proof.Machine
end


section
/-! The bytes of the header and of a block (O56). -/

set_option Elab.async false

namespace Sys2Proof.Machine

/-! ## Bytes and the numbers they spell -/

theorem length_leBytes (n v : Nat) : (leBytes n v).length = n := by
  induction n generalizing v with
  | zero => rfl
  | succ n ih => rw [leBytes, List.length_cons, ih]

theorem leNat_leBytes {n v : Nat} (h : v < 256 ^ n) : leNat (leBytes n v) = v := by
  induction n generalizing v with
  | zero => simp [leBytes, leNat]; omega
  | succ n ih =>
    rw [leBytes, leNat, ih (Nat.div_lt_of_lt_mul (by rwa [Nat.pow_succ'] at h)), BitVec.toNat_ofNat]
    exact Nat.mod_add_div v 256

/-- As many bytes spell the same number only when they are the same bytes. -/
theorem leNat_inj {l m : List Byte} (hlen : l.length = m.length) : leNat l = leNat m ↔ l = m := by
  refine ⟨fun h => ?_, fun h => h ▸ rfl⟩
  induction l generalizing m with
  | nil => exact (List.eq_nil_of_length_eq_zero hlen.symm).symm
  | cons x l ih =>
    obtain _ | ⟨y, m⟩ := m
    · cases hlen
    · rw [leNat, leNat] at h
      have hx := x.isLt
      have hy := y.isLt
      rw [BitVec.eq_of_toNat_eq (x := x) (y := y) (by omega), ih (Nat.succ.inj hlen) (by omega)]

/-- A field of four bytes holds a number exactly when its bytes are that number's. -/
theorem fieldAt_four (b : Table Byte 64) {k : Nat} (hk : k + 4 ≤ 64) {l : List Byte} (hl : l.length = 4) :
    fieldAt b k 4 = leNat l ↔ [byteAt b k, byteAt b (k + 1), byteAt b (k + 2), byteAt b (k + 3)] = l := by
  rw [fieldAt, bytes_eq_map b hk]
  exact leNat_inj (m := l) hl.symm

/-! ## What a header read and the accesses carry -/

theorem headerGood_iff (b : Table Byte 64) :
    headerGood b = true ↔
      [byteAt b 0, byteAt b 1, byteAt b 2, byteAt b 3] = [0x42, 0x54, 0x5A, 0x4E] ∧
        [byteAt b 4, byteAt b 5, byteAt b 6, byteAt b 7] = [1, 0, 0, 0] ∧
        fieldAt b 16 8 ≠ 0 ∧ fieldAt b 16 8 % 64 = 0 := by
  have hsignature := fieldAt_four b (k := 0) (by decide) (l := [0x42, 0x54, 0x5A, 0x4E]) rfl
  have hversion := fieldAt_four b (k := 4) (by decide) (l := [1, 0, 0, 0]) rfl
  have hsig : Config.signature.toNat = leNat [0x42, 0x54, 0x5A, 0x4E] := by decide
  have hver : Config.layoutVersion.toNat = leNat [1, 0, 0, 0] := by decide
  rw [← hsignature, ← hversion, headerGood, hsig, hver]
  simp only [Bool.and_eq_true, beq_iff_eq, bne_iff_ne, and_assoc]

/-- The address of the link a link read reads, by the anchor (R119). -/
theorem linkAddress_of_block {a : Addr} {s : State} (h : s.walker.anchor = .block a) : linkAddress s = a := by
  rw [linkAddress, h]

theorem linkAddress_of_header {page : Board} {s : State} (hboard : s.walker.board = some page)
    (h : s.walker.anchor = .header) : linkAddress s = page.header + 8 := by
  rw [linkAddress, h, hboard]; rfl

/-- The sixteen bytes of a header write: the anchor's field and the two counts. -/
def headerBytes (w : Walker) : List Byte :=
  leBytes 8 w.anchor.field.toNat ++ leBytes 4 w.takenCount.toNat ++ leBytes 4 w.finishedCount.toNat

theorem busAccess_headerWrite {page : Board} {s : State} (hboard : s.walker.board = some page) :
    (busAccess .headerWrite s).parts = [(page.header + 24, headerBytes s.walker)] := by
  simp [busAccess, hboard, headerBytes]

theorem headerBytes_fields (w : Walker) :
    (headerBytes w).length = 16 ∧ leNat ((headerBytes w).take 8) = w.anchor.field.toNat ∧
      leNat (((headerBytes w).drop 8).take 4) = w.takenCount.toNat ∧
      leNat ((headerBytes w).drop 12) = w.finishedCount.toNat := by
  have hanchor := leNat_leBytes (n := 8) w.anchor.field.isLt
  have htaken := leNat_leBytes (n := 4) w.takenCount.isLt
  have hfinished := leNat_leBytes (n := 4) w.finishedCount.isLt
  have hpast (v : Nat) : (leBytes 8 v).drop 12 = [] := List.drop_eq_nil_of_le (by simp [length_leBytes])
  simp [headerBytes, List.drop_append, length_leBytes, hpast, hanchor, htaken, hfinished]

theorem anchor_field (x : Anchor) : x.field.toNat = match x with | .block a => a.toNat | _ => 0 := by
  cases x <;> rfl

/-- Settles O56: the codes, the header's judgement, and what each access reads and writes. -/
theorem headerAndBlockBytes : Obligations.HeaderAndBlockBytes := by
  refine ⟨⟨rfl, rfl, rfl⟩, headerGood_iff, fun a n s => ⟨rfl, rfl, rfl⟩, fun page s hboard => ⟨?_, ?_, ?_⟩,
    fun w s => ⟨?_, ?_, ?_⟩⟩
  · exact fun a ha => congrArg (fun x => some (x, 8)) (linkAddress_of_block ha)
  · exact fun ha => congrArg (fun x => some (x, 8)) (linkAddress_of_header hboard ha)
  · obtain ⟨hlen, hanchor, htaken, hfinished⟩ := headerBytes_fields s.walker
    rw [busAccess_headerWrite hboard]
    simp only [List.flatMap_cons, List.flatMap_nil, List.append_nil]
    exact ⟨rfl, hlen, hanchor.trans (anchor_field _), htaken, hfinished⟩
  · intro hform
    simp [busAccess, hform, blockWriteParts]
  · intro outs hform
    simp [busAccess, hform, blockWriteParts]
  · intro r hform
    simp [busAccess, hform, blockWriteParts]

end Sys2Proof.Machine
end


section
/-! The read of a block: EMPTY, POSTED or neither, and the refusals of Table 8-2 in their order (O38). -/

set_option Elab.async false

namespace Sys2Proof.Machine

variable {b data : Table Byte 64} {c : FetchedCopy} {s u : State}

/-! ## The kind (R131) -/

/-- Kind codes (Table 8-1). -/
def Kind.code : Kind → Nat
  | .wake => 1 | .pause => 2 | .resume => 3 | .sleep => 4 | .clear => 5 | .setProfile => 6
  | .setGroup => 7 | .bindInput => 8 | .setRig => 9

theorem kindOf_eq_some {k : Kind} (h : kindOf b = some k) : numAt b 9 = k.code := by
  unfold kindOf at h
  unfold numAt
  split at h <;> cases h <;> assumption

theorem kindOf_eq_none (h : kindOf b = none) : numAt b 9 = 0 ∨ 9 < numAt b 9 := by
  have hcode (n : Nat) (hn : n < 10) (hpos : n ≠ 0) : numAt b 9 ≠ n := by
    rintro rfl
    unfold kindOf at h
    unfold numAt at hn hpos
    split at h <;> simp_all
    omega
  by_contra! hin
  exact hcode (numAt b 9) (by omega) hin.1 rfl

/-! ## The common checks (R132, R133) -/

theorem badFlags_eq {k : Kind} (h : kindOf b = some k) : badFlags k b = flagsBad b := by
  have hcode := kindOf_eq_some h
  unfold badFlags flagsBad
  rw [hcode]
  cases k <;> rfl

theorem targetGroup_isNone (b : Table Byte 64) (u : State) :
    (targetGroup? b u).isNone =
      (decide (8 ≤ fieldAt b 16 2) || (u.group (Fin.ofNat 8 (fieldAt b 16 2))).defn.isNone) := by
  by_cases hlt : fieldAt b 16 2 < 8
  · have hsmall : small? (targetField b) = some ⟨fieldAt b 16 2, hlt⟩ := small?_of_lt hlt
    have hgroup : (⟨fieldAt b 16 2, hlt⟩ : GroupNo) = Fin.ofNat 8 (fieldAt b 16 2) :=
      Fin.ext (Nat.mod_eq_of_lt hlt).symm
    simp [targetGroup?, hsmall, hgroup, Nat.not_le.2 hlt]
  · have hsmall : small? (targetField b) = none := dif_neg hlt
    simp [targetGroup?, hsmall, Nat.not_lt.1 hlt]

theorem badTarget_eq {k : Kind} (h : kindOf b = some k) (u : State) : badTarget k b u = targetBad b u := by
  have hcode := kindOf_eq_some h
  have hconfig : k.isConfig = decide (7 ≤ numAt b 9) := by rw [hcode]; cases k <;> rfl
  unfold badTarget targetBad
  rw [targetGroup_isNone, hconfig]
  simp only [decide_eq_true_eq]
  rfl

/-! ## The parameters (Table 8-3) -/

theorem mapM_portNo_vals {l : List Byte} {ps : List PortNo} (h : l.mapM portNo? = some ps) :
    ps.map (·.val) = l.map (·.toNat) := by
  induction l generalizing ps with
  | nil => cases h; rfl
  | cons x l ih =>
    simp only [List.mapM_cons, Option.bind_eq_bind, Option.bind_eq_some_iff, Option.pure_def, Option.some.injEq] at h
    obtain ⟨p, hp, rest, hrest, rfl⟩ := h
    have hval : p.val = x.toNat := by
      unfold portNo? at hp
      split at hp <;> cases hp
      rfl
    rw [List.map_cons, List.map_cons, hval, ih hrest]

/-- Members that are read as distinct ports pass Table 8-3. -/
theorem members_of_groupMembers {n : Nat} {ms : List PortNo} (hn : n ≤ 16) (h : groupMembers? b n = some ms)
    (hdistinct : ms.Nodup) :
    ∀ i < n, numAt b (23 + i) < 16 ∧ ∀ j < i, numAt b (23 + i) ≠ numAt b (23 + j) := by
  have hvals : ms.map (·.val) = (List.range n).map fun i => numAt b (23 + i) := by
    rw [mapM_portNo_vals h, List.take_take, Nat.min_eq_left hn, bytes_eq_map b (by omega), List.map_map]
    rfl
  have hnodup : ((List.range n).map fun i => numAt b (23 + i)).Nodup := hvals ▸ hdistinct.map Fin.val_injective
  have hinj := (List.nodup_map_iff_inj_on List.nodup_range).1 hnodup
  intro i hi
  have hmem : numAt b (23 + i) ∈ ms.map (·.val) := hvals ▸ List.mem_map_of_mem (List.mem_range.2 hi)
  obtain ⟨p, -, hp⟩ := List.mem_map.1 hmem
  refine ⟨hp ▸ p.isLt, fun j hj heq => ?_⟩
  have := hinj _ (List.mem_range.2 hi) _ (List.mem_range.2 (hj.trans hi)) heq
  omega

theorem small?_eq_some {n : Nat} {x : Fin 8} (h : small? n = some x) : x.val = n := by
  unfold small? at h
  split at h <;> cases h
  rfl

/-- A SET_GROUP that the model reads names the group of its block and passes Table 8-3. -/
theorem params_of_groupRequest {q : GroupRequest} (hkind : numAt b 9 = 7) (h : groupRequest? b = some q) :
    q.group.val = numAt b 20 ∧ paramsGood b = true := by
  unfold groupRequest? at h
  dsimp only at h
  split at h
  · cases h
  next g hg =>
    have hgroup : g.val = numAt b 20 := small?_eq_some hg
    have hlt : numAt b 20 < 8 := hgroup ▸ g.isLt
    split at h
    next hzero =>
      have hzero : numAt b 21 = 0 := hzero
      split at h <;> cases h
      next hlead =>
        have hlead : numAt b 22 = 0 := hlead
        exact ⟨hgroup, by simp [paramsGood, hkind, hlt, hzero, hlead]⟩
    next hsome =>
      split at h
      · next hcount =>
        have hcount : numAt b 21 ≤ 16 ∧ numAt b 22 < numAt b 21 := hcount
        have hsome : numAt b 21 ≠ 0 := hsome
        split at h
        next ms hms =>
          split at h <;> cases h
          next hdistinct =>
            have hmembers := members_of_groupMembers hcount.1 hms hdistinct
            refine ⟨hgroup, ?_⟩
            simpa [paramsGood, hkind, hlt, hsome, hcount] using hmembers
        · cases h
      · cases h

theorem action?_range {n : Nat} {x : Action} (h : action? n = some x) : 1 ≤ n ∧ n ≤ 4 := by
  unfold action? at h
  split at h <;> cases h <;> decide

theorem edge?_range {n : Nat} {x : EdgeSel} (h : edge? n = some x) : 1 ≤ n ∧ n ≤ 3 := by
  unfold edge? at h
  split at h <;> cases h <;> decide

/-- The line and, for a binding, the group that a BIND_INPUT names. -/
def BindNames (b : Table Byte 64) : BindRequest → Prop
  | .bind n x => n.val = numAt b 20 ∧ numAt b 21 = 1 ∧ x.group.val = numAt b 22
  | .unbind n => n.val = numAt b 20 ∧ numAt b 21 = 2

/-- A BIND_INPUT that the model reads names what its block names and passes Table 8-3. -/
theorem params_of_bindRequest {q : BindRequest} (hkind : numAt b 9 = 8) (h : bindRequest? b = some q) :
    BindNames b q ∧ paramsGood b = true := by
  unfold bindRequest? at h
  split at h
  next l hline hmode =>
    have hmode : numAt b 21 = 1 := hmode
    have hl : l.val = numAt b 20 := small?_eq_some hline
    split at h
    next g x e hg hx he =>
      cases h
      have hgroup : g.val = numAt b 22 := small?_eq_some hg
      have hlt : numAt b 22 < 8 := hgroup ▸ g.isLt
      have hline : numAt b 20 < 8 := hl ▸ l.isLt
      have hact : 1 ≤ numAt b 23 ∧ numAt b 23 ≤ 4 := action?_range hx
      have hedge : 1 ≤ numAt b 24 ∧ numAt b 24 ≤ 3 := edge?_range he
      exact ⟨⟨hl, hmode, hgroup⟩, by simp [paramsGood, hkind, hmode, hlt, hline, hact, hedge]⟩
    · cases h
  next l hline hmode =>
    cases h
    have hmode : numAt b 21 = 2 := hmode
    have hl : l.val = numAt b 20 := small?_eq_some hline
    have hline : numAt b 20 < 8 := hl ▸ l.isLt
    exact ⟨⟨hl, hmode⟩, by simp [paramsGood, hkind, hmode, hline]⟩
  · cases h

theorem rigOffer_inRange_eq (hkind : numAt b 9 = 9) : (rigOffer b).inRange = paramsGood b := by
  simp only [paramsGood, hkind, rigOffer_eq, RigOffer.inRange, inRange_offered]

/-! ## The kinds that refuse (R90, R134, R135) -/

theorem takeSetProfile_refuses (h : listBad c.data = true) (u : State) :
    takeSetProfile c u = refuse c .badProfile u := by
  have hzero : listAddress c.data = 0 ↔ fieldAt c.data 20 8 = 0 := by
    rw [← listAddress_toNat, BitVec.toNat_eq]; rfl
  have hbad : 12 < listCount c.data ∨
      listCount c.data ≠ 0 ∧ (listAddress c.data = 0 ∨ (listAddress c.data).toNat % 4 ≠ 0) := by
    rw [hzero, listAddress_toNat]
    have hcount : numAt c.data 28 = listCount c.data := rfl
    simpa [listBad, hcount, Nat.one_le_iff_ne_zero] using h
  unfold takeSetProfile
  dsimp only
  rcases hbad with hcount | ⟨hsome, haddress⟩
  · rw [if_pos hcount]
  · rw [if_neg hsome, if_pos haddress, ite_self]

theorem takeSetGroup_refuses {r : RefusalReason} (hkind : numAt c.data 9 = 7)
    (h : if paramsGood c.data = false then r = .badParam else concernBusy c.data u = true ∧ r = .groupBusy) :
    takeSetGroup c u = refuse c r u := by
  unfold takeSetGroup
  cases hq : groupRequest? c.data with
  | none =>
    have hbad : paramsGood c.data = false := by
      by_contra hgood
      obtain ⟨q, hsome, -⟩ := groupRequest_of_params hkind (Bool.eq_true_of_not_eq_false hgood)
      rw [hq] at hsome; cases hsome
    rw [if_pos hbad] at h
    rw [h]
  | some q =>
    obtain ⟨hgroup, hgood⟩ := params_of_groupRequest hkind hq
    rw [hgood, if_neg (by decide)] at h
    obtain ⟨hbusy, rfl⟩ := h
    rw [concernBusy, if_pos hkind, ← hgroup, ← groupBusy_eq_sweeping] at hbusy
    exact if_pos hbusy

theorem takeBindInput_refuses {r : RefusalReason} (hkind : numAt c.data 9 = 8)
    (h : if paramsGood c.data = false then r = .badParam else concernBusy c.data u = true ∧ r = .groupBusy) :
    takeBindInput c u = refuse c r u := by
  have hseven : numAt c.data 9 ≠ 7 := by omega
  unfold takeBindInput
  cases hq : bindRequest? c.data with
  | none =>
    have hbad : paramsGood c.data = false := by
      by_contra hgood
      obtain ⟨n, -, ⟨-, hsome⟩ | ⟨-, x, hsome, -⟩⟩ :=
        bindRequest_of_params hkind (Bool.eq_true_of_not_eq_false hgood) <;> rw [hq] at hsome <;> cases hsome
    rw [if_pos hbad] at h
    rw [h]
  | some q =>
    obtain ⟨hnames, hgood⟩ := params_of_bindRequest hkind hq
    rw [hgood, if_neg (by decide)] at h
    obtain ⟨hbusy, rfl⟩ := h
    rw [concernBusy, if_neg hseven] at hbusy
    cases q with
    | bind n x =>
      obtain ⟨-, hmode, hgroup⟩ := hnames
      rw [if_pos hmode, ← hgroup, ← groupBusy_eq_sweeping] at hbusy
      exact if_pos hbusy
    | unbind n =>
      obtain ⟨hline, hmode⟩ := hnames
      rw [if_neg (by omega), ← hline, Fin.ofNat_val_eq_self] at hbusy
      simp only [← groupBusy_eq_sweeping] at hbusy
      exact if_pos hbusy

theorem busy_of_held {g : Governor} (h : g.queue ≠ [] ∨ 0 < g.slotsHeld) : g.busy = true := by
  unfold Governor.busy
  rcases h with hqueue | hheld
  · simp [hqueue]
  · have : true ∈ g.holders.items := List.count_pos_iff.1 hheld
    simp [this]

theorem takeSetRig_refuses {r : RefusalReason} (hkind : numAt c.data 9 = 9)
    (h : if paramsGood c.data = false then r = .badParam
      else (u.governor.queue ≠ [] ∨ 0 < u.governor.slotsHeld) ∧ r = .rigBusy) :
    takeSetRig c u = refuse c r u := by
  unfold takeSetRig
  dsimp only
  rw [rigOffer_inRange_eq hkind]
  split at h
  next hbad => rw [if_pos hbad, h]
  next hgood => rw [if_neg hgood, if_pos (busy_of_held h.1), h.2]

/-! ## The checks in their order (Table 8-2) -/

/-- What the check of parameters, list and what the request concerns refuses, of a kind whose flags and target are
good. -/
def kindRefusal (b : Table Byte 64) (s : State) : Option RefusalReason :=
  if 7 ≤ numAt b 9 ∧ paramsGood b = false then some .badParam
  else if numAt b 9 = 6 ∧ listBad b = true then some .badProfile
  else if (numAt b 9 = 7 ∨ numAt b 9 = 8) ∧ concernBusy b s = true then some .groupBusy
  else if numAt b 9 = 9 ∧ (s.governor.queue ≠ [] ∨ 0 < s.governor.slotsHeld) then some .rigBusy
  else none

theorem takeKind_refuses {k : Kind} {r : RefusalReason} (hk : numAt c.data 9 = k.code)
    (h : kindRefusal c.data u = some r) : takeKind k c u = refuse c r u := by
  unfold kindRefusal at h
  rw [hk] at h
  cases k with
  | setProfile =>
    simp [Kind.code] at h
    obtain ⟨hlist, rfl⟩ := h
    exact takeSetProfile_refuses hlist u
  | setGroup =>
    refine takeSetGroup_refuses hk ?_
    simp [Kind.code] at h
    split <;> simp_all
  | bindInput =>
    refine takeBindInput_refuses hk ?_
    simp [Kind.code] at h
    split <;> simp_all
  | setRig =>
    refine takeSetRig_refuses hk ?_
    simp [Kind.code] at h
    split <;> simp_all
  | _ => simp [Kind.code] at h

theorem takeCopy_refuses {r : RefusalReason} (h : refusalOf c.data u = some r) : takeCopy c u = refuse c r u := by
  unfold takeCopy
  cases hkind : kindOf c.data with
  | none =>
    have hcode := kindOf_eq_none hkind
    unfold refusalOf at h
    dsimp only at h
    rw [if_pos hcode] at h
    cases h; rfl
  | some k =>
    have hcode := kindOf_eq_some hkind
    have hknown : ¬(numAt c.data 9 = 0 ∨ 9 < numAt c.data 9) := by rw [hcode]; cases k <;> decide
    have hchecks : (if flagsBad c.data then some RefusalReason.badFlags
        else if targetBad c.data u then some .badTarget else kindRefusal c.data u) = some r := by
      rw [← h]; exact (if_neg hknown).symm
    dsimp only
    rw [badFlags_eq hkind, badTarget_eq hkind]
    split_ifs at hchecks ⊢ with hflags htarget
    · cases hchecks; rfl
    · cases hchecks; rfl
    · exact takeKind_refuses hcode hchecks

/-! ## The read -/

theorem blockRead_of_code (a : Addr) (data : Table Byte 64) (s : State) :
    (numAt data 8 = 0 → blockRead a data s = enterWatching (s.setWalker { s.walker with copy := none })) ∧
      (2 ≤ numAt data 8 →
        blockRead a data s = haltWalker .badState (s.setWalker { s.walker with copy := none })) := by
  refine ⟨fun hempty => ?_, fun hother => ?_⟩
  · have hbyte : byteAt data 8 = 0 := BitVec.eq_of_toNat_eq hempty
    simp [blockRead, blockState, hbyte]
  · have hzero : byteAt data 8 ≠ 0 := fun h => by simp [numAt, h] at hother
    have hone : byteAt data 8 ≠ 1 := fun h => by simp [numAt, h] at hother
    rw [blockRead, blockState, if_neg hzero, if_neg hone]

/-- Settles O38: by the state byte of the block, and a POSTED block by the first check of Table 8-2 that it fails. -/
theorem blockReadsWatchHaltOrRefuse : Obligations.BlockReadsWatchHaltOrRefuse := by
  intro b a data s h hst hread
  obtain ⟨hcur, hacc, hhalt⟩ := hread
  have hatt : s.walker.state.attached = true := by rw [hst]; rfl
  have hcounts : readCounts s.quiet b = true :=
    (readCounts_iff _ _).2 ⟨hhalt, by rw [quiet_walker, hst]; exact WalkerState.noConfusion⟩
  have hexec := exec_blockRead hcounts hcur hacc data
  have hframe : BoardFrame s ((offBus s).setWalker { (offBus s).walker with copy := none }) := rfl
  obtain ⟨hempty, hother⟩ := blockRead_of_code a data (offBus s)
  refine ⟨_, hexec, fun hcode => ?_, fun hcode => ?_, fun hcode => ?_, fun hcode r hr => ?_⟩
  · rw [hempty hcode]
    obtain ⟨hboard, hinflight⟩ := (enterWatching_frame hframe).ends
    exact ⟨hboard, hinflight, settle_enterWatching h hatt rfl rfl rfl rfl⟩
  · rw [hother hcode]
    obtain ⟨hboard, hinflight⟩ := (haltWalker_frame .badState hframe).ends
    refine ⟨hboard, hinflight, settle_halts .badState rfl rfl rfl, ?_, settle_halt_current ..,
      settle_halt_accesses ..⟩
    rw [settle_haltWalker]
    exact ite_self none
  · exact Host.Outcome.next.inj (hexec.symm.trans (exec_blockRead_posted hst ⟨hcur, hacc, hhalt⟩ hcode))
  · have hposted := exec_blockRead_posted hst ⟨hcur, hacc, hhalt⟩ hcode
    rw [takeCopy_refuses (c := { address := a, data := data }) (u := copyHeld _ s.quiet) hr] at hposted
    rw [Host.Outcome.next.inj (hexec.symm.trans hposted)]
    have he := takeEnds_of_ports (u := copyHeld { address := a, data := data } s.quiet) (form := .refused r) h hst rfl
    exact ⟨⟨he.rig, he.ports, he.reader, he.stampCounter⟩, he.inflight, he.regs, he.writer, he.took⟩

end Sys2Proof.Machine
end


section
/-! The record of wire acts is written and never read: every operation of a take does the same whatever acts came
before (log entry 5). -/

set_option Elab.async false

namespace Sys2Proof.Machine

variable {a : List WireAct} {s : State}

/-- The same state, with these acts on the wires before its own. -/
def State.after (a : List WireAct) (s : State) : State := { s with acts := a ++ s.acts }

/-! ## Reading -/

@[simp] theorem after_cadence : (s.after a).cadence = s.cadence := rfl

@[simp] theorem after_stampCounter : (s.after a).stampCounter = s.stampCounter := rfl

@[simp] theorem after_governor : (s.after a).governor = s.governor := rfl

@[simp] theorem after_walker : (s.after a).walker = s.walker := rfl

@[simp] theorem after_inflight : (s.after a).inflight = s.inflight := rfl

@[simp] theorem after_writer : (s.after a).writer = s.writer := rfl

@[simp] theorem after_port (p : PortNo) : (s.after a).port p = s.port p := rfl

@[simp] theorem after_entry (e : EntryNo) : (s.after a).entry e = s.entry e := rfl

@[simp] theorem after_group (g : GroupNo) : (s.after a).group g = s.group g := rfl

@[simp] theorem after_sweep (r : SweepNo) : (s.after a).sweep r = s.sweep r := rfl

@[simp] theorem after_binding (n : LineNo) : (s.after a).binding n = s.binding n := rfl

@[simp] theorem after_members (g : GroupNo) : (s.after a).members g = s.members g := rfl

@[simp] theorem after_nextTicket : (s.after a).nextTicket = s.nextTicket := rfl

@[simp] theorem after_freeEntry : (s.after a).freeEntry? = s.freeEntry? := rfl

@[simp] theorem after_freeSweep : (s.after a).freeSweep? = s.freeSweep? := rfl

/-! ## Changing one thing -/

@[simp] theorem after_modPort (p : PortNo) (f : Port → Port) : (s.after a).modPort p f = (s.modPort p f).after a := rfl

@[simp] theorem after_setEntry (e : EntryNo) (x : Option Entry) :
    (s.after a).setEntry e x = (s.setEntry e x).after a := rfl

@[simp] theorem after_setGroup (g : GroupNo) (x : Group) : (s.after a).setGroup g x = (s.setGroup g x).after a := rfl

@[simp] theorem after_setSweep (r : SweepNo) (x : Option Sweep) :
    (s.after a).setSweep r x = (s.setSweep r x).after a := rfl

@[simp] theorem after_setBinding (n : LineNo) (x : Option Binding) :
    (s.after a).setBinding n x = (s.setBinding n x).after a := rfl

@[simp] theorem after_setWalker (w : Walker) : (s.after a).setWalker w = (s.setWalker w).after a := rfl

@[simp] theorem after_setWriter (w : Writer) : (s.after a).setWriter w = (s.setWriter w).after a := rfl

@[simp] theorem after_raise (c : Cause) : (s.after a).raise c = (s.raise c).after a := rfl

@[simp] theorem after_place (x : Access) : (s.after a).place x = (s.place x).after a := rfl

@[simp] theorem after_tellGovernor (p : PortNo) (m : GovMsg) :
    (s.after a).tellGovernor p m = (s.tellGovernor p m).after a := rfl

@[simp] theorem after_handJoin (p : PortNo) (ticket : Nat) : (s.after a).handJoin p ticket = (s.handJoin p ticket).after a :=
  rfl

@[simp] theorem after_drawStamp (p : PortNo) : (s.after a).drawStamp p = (s.drawStamp p).after a := rfl

@[simp] theorem after_emit (l : List WireAct) : (s.after a).emit l = (s.emit l).after a := by
  simp [State.emit, State.after]

/-! ## Branches -/

@[simp] theorem after_ite (P : Prop) [Decidable P] (s t : State) :
    (if P then s.after a else t.after a) = (if P then s else t).after a := (apply_ite ..).symm

@[simp] theorem after_post (x : Slot) : (s.after a).post x = (s.post x).after a := by
  unfold State.post
  rw [after_writer, after_setWriter, after_ite]

@[simp] theorem after_postIfChanged (x : Port) (p : PortNo) :
    State.postIfChanged x p (s.after a) = (State.postIfChanged x p s).after a := by simp [State.postIfChanged]

@[simp] theorem after_placeHeaderWrite : (s.after a).placeHeaderWrite = s.placeHeaderWrite.after a := by
  unfold State.placeHeaderWrite
  rw [after_walker, after_place, after_ite]

theorem after_atPort {p : PortNo} {f : State → State} (h : f (s.after a) = (f s).after a) :
    (s.after a).atPort p f = (s.atPort p f).after a := by simp [State.atPort, h]

/-! ## Outcomes (R145, R146) -/

@[simp] theorem after_recordOutcome (e : EntryNo) (p : PortNo) (o : OutcomeCode) :
    (s.after a).recordOutcome e p o = (s.recordOutcome e p o).after a := by
  unfold State.recordOutcome
  rw [after_entry]
  cases s.entry e <;> rfl

@[simp] theorem after_finishEntry (e : EntryNo) : (s.after a).finishEntry e = (s.finishEntry e).after a := by
  unfold State.finishEntry
  rw [after_entry]
  cases s.entry e <;> simp

@[simp] theorem after_giveEach (p : PortNo) (o : OutcomeCode) (l : List EntryNo) :
    giveEach p o l (s.after a) = (giveEach p o l s).after a := by
  induction l generalizing s with
  | nil => rfl
  | cons e l ih => simp [giveEach, State.giveOutcome, ih]

@[simp] theorem after_giveAll (p : PortNo) (o : OutcomeCode) : (s.after a).giveAll p o = (s.giveAll p o).after a := by
  simp [State.giveAll]

/-! ## The lane and the sequencer -/

@[simp] theorem after_beginAttempt (p : PortNo) (ph : Phrase) :
    beginAttempt p ph (s.after a) = (beginAttempt p ph s).after a := by simp [beginAttempt]

@[simp] theorem after_grantPoint (p : PortNo) : grantPoint p (s.after a) = (grantPoint p s).after a := by
  unfold grantPoint
  rw [after_port]
  dsimp only
  rw [after_modPort, after_port]
  cases ((s.modPort p fun x => { x with stepClaim := false }).port p).chooseStep <;>
    simp only [after_beginAttempt, after_ite]

@[simp] theorem after_raiseClaim (p : PortNo) : raiseClaim p (s.after a) = (raiseClaim p s).after a := rfl

@[simp] theorem after_abandonLane (p : PortNo) : abandonLane p (s.after a) = (abandonLane p s).after a := by
  simp [abandonLane]

@[simp] theorem after_enterState (p : PortNo) (st : PState) :
    enterState p st (s.after a) = (enterState p st s).after a := by simp [enterState]

@[simp] theorem after_reached (p : PortNo) : reached p (s.after a) = (reached p s).after a := by simp [reached]

@[simp] theorem after_queueUp (p : PortNo) : queueUp p (s.after a) = (queueUp p s).after a := by simp [queueUp]

@[simp] theorem after_enterOff (p : PortNo) : enterOff p (s.after a) = (enterOff p s).after a := by simp [enterOff]

@[simp] theorem after_cutRail (p : PortNo) (why : EndReason) :
    cutRail p why (s.after a) = (cutRail p why s).after a := by simp [cutRail]

@[simp] theorem after_giveUpHoldings (p : PortNo) :
    giveUpHoldings p (s.after a) = (giveUpHoldings p s).after a := by
  unfold giveUpHoldings
  rw [after_port, after_tellGovernor, after_tellGovernor, after_ite, after_ite]

@[simp] theorem after_identifyAgain (p : PortNo) (ticket : Nat) :
    identifyAgain p ticket (s.after a) = (identifyAgain p ticket s).after a := by simp [identifyAgain]

theorem after_clearPort (p : PortNo) (ticket : Nat) :
    clearPort p ticket (s.after a) = ((clearPort p ticket s).1, (clearPort p ticket s).2.after a) := by
  unfold clearPort
  rw [after_port]
  split <;> simp

/-! ## Target sets (R11, R12) -/

@[simp] theorem after_waitFor (p : PortNo) (awaited : Target) (ms : Nat) :
    waitFor p awaited ms (s.after a) = (waitFor p awaited ms s).after a := rfl

@[simp] theorem after_callAgain (p : PortNo) (old : Target) :
    callAgain p old (s.after a) = (callAgain p old s).after a := by simp [callAgain]

@[simp] theorem after_actOnTarget (p : PortNo) (old : Target) :
    actOnTarget p old (s.after a) = (actOnTarget p old s).after a := by
  unfold actOnTarget
  rw [after_port]
  dsimp only
  split <;> simp

@[simp] theorem after_storeTarget (p : PortNo) (t : Target) :
    storeTarget p t (s.after a) = (storeTarget p t s).after a := by simp [storeTarget]

@[simp] theorem after_carryOut (p : PortNo) (t : TargetSet) (old : Target) :
    carryOut p t old (s.after a) = (carryOut p t old s).after a := by simp [carryOut, cutToOff]

@[simp] theorem after_joinWaiters (p : PortNo) (ref : Option EntryNo) :
    joinWaiters p ref (s.after a) = (joinWaiters p ref s).after a := by cases ref <;> rfl

theorem after_targetSet (p : PortNo) (t : TargetSet) (ref : Option EntryNo) :
    targetSet p t ref (s.after a) = ((targetSet p t ref s).1, (targetSet p t ref s).2.after a) := by
  unfold targetSet
  simp only [after_port]
  split
  · rfl
  · rw [after_atPort (by simp)]

theorem after_handTargets (t : TargetSet) (ref : Option EntryNo) (ps : List PortNo) (x : Answers) :
    handTargets t ref ps x (s.after a) = ((handTargets t ref ps x s).1, (handTargets t ref ps x s).2.after a) := by
  induction ps generalizing x s with
  | nil => rfl
  | cons p ps ih => simp [handTargets, after_targetSet, ih]

theorem after_clearPorts (ticket : Nat) (ps : List PortNo) (o : Table OutcomeCode 16) :
    clearPorts ticket ps o (s.after a) = ((clearPorts ticket ps o s).1, (clearPorts ticket ps o s).2.after a) := by
  induction ps generalizing o s with
  | nil => rfl
  | cons p ps ih =>
    have hport : (s.after a).atPort p (fun s => (clearPort p ticket s).2) =
        (s.atPort p fun s => (clearPort p ticket s).2).after a := after_atPort (by rw [after_clearPort])
    rw [clearPorts, clearPorts, hport, after_clearPort, ih]

@[simp] theorem after_handReplacements (list : Profile) (ps : List PortNo) :
    handReplacements list ps (s.after a) = (handReplacements list ps s).after a := by
  induction ps generalizing s with
  | nil => rfl
  | cons p ps ih => rw [handReplacements, handReplacements, after_modPort, ih]

/-! ## Sweeps (R157 to R160) -/

@[simp] theorem after_recordAnswer (o : Origin) (p : PortNo) (x : Answer) :
    recordAnswer o p x (s.after a) = (recordAnswer o p x s).after a := by
  cases o <;> cases x <;> simp [recordAnswer]

@[simp] theorem after_visitMember (x : Sweep) (p : PortNo) :
    visitMember x p (s.after a) = (visitMember x p s).after a := by simp [visitMember, after_targetSet]

@[simp] theorem after_freeSweepRecord (r : SweepNo) (x : Sweep) :
    freeSweep r x (s.after a) = (freeSweep r x s).after a := rfl

/-- A visit of the place under a sweep's cursor, if a member stands there. -/
def visitAt (x : Sweep) (o : Option PortNo) (s : State) : State :=
  match o with
  | some p => visitMember x p s
  | none => s

@[simp] theorem after_visitAt (x : Sweep) (o : Option PortNo) :
    visitAt x o (s.after a) = (visitAt x o s).after a := by
  cases o with
  | none => rfl
  | some p => exact after_visitMember x p

theorem runVisits_succ (n : Nat) (r : SweepNo) (s : State) :
    runVisits (n + 1) r s =
      match s.sweep r with
      | none => (false, s)
      | some x =>
        let u := visitAt x (s.members x.group)[x.cursor]? s
        let y := x.advance (s.members x.group).length
        if y.remaining = 0 then (true, freeSweep r x u)
        else if x.stagger = 0 then runVisits n r (u.setSweep r (some y))
        else (false, u.setSweep r (some y)) := rfl

theorem after_runVisits (n : Nat) (r : SweepNo) :
    runVisits n r (s.after a) = ((runVisits n r s).1, (runVisits n r s).2.after a) := by
  induction n generalizing s with
  | zero => rfl
  | succ n ih =>
    rw [runVisits_succ, runVisits_succ, after_sweep]
    cases s.sweep r with
    | none => rfl
    | some x =>
      simp only [after_members, after_visitAt, after_freeSweepRecord, after_setSweep, ih]
      split_ifs <;> rfl

theorem after_startSweep (r : SweepNo) (g : GroupNo) (d : GroupDef) (t : TargetSet) (o : Origin) (stagger : Nat) :
    startSweep r g d t o stagger (s.after a) =
      ((startSweep r g d t o stagger s).1, (startSweep r g d t o stagger s).2.after a) := by
  simp [startSweep, after_runVisits]

/-! ## Takes (R121) -/

@[simp] theorem after_moveAnchor (c : FetchedCopy) (form : BlockForm) :
    moveAnchor c form (s.after a) = (moveAnchor c form s).after a := rfl

@[simp] theorem after_lookFromAnchor : lookFromAnchor (s.after a) = (lookFromAnchor s).after a := by
  simp [lookFromAnchor]

@[simp] theorem after_refuse (c : FetchedCopy) (r : RefusalReason) :
    refuse c r (s.after a) = (refuse c r s).after a := by simp [refuse]

@[simp] theorem after_complete (c : FetchedCopy) (outs : Table OutcomeCode 16) :
    complete c outs (s.after a) = (complete c outs s).after a := by simp [complete]

@[simp] theorem after_stall (c : FetchedCopy) : stall c (s.after a) = (stall c s).after a := rfl

@[simp] theorem after_takeUnstaggered (c : FetchedCopy) (t : TargetSet) (ps : List PortNo) :
    takeUnstaggered c t ps (s.after a) = (takeUnstaggered c t ps s).after a := by
  have hwaits : someWaits t ps (s.after a) = someWaits t ps s := rfl
  unfold takeUnstaggered
  rw [hwaits, after_freeEntry]
  cases s.freeEntry? <;> simp [after_handTargets]

@[simp] theorem after_takeStaggered (c : FetchedCopy) (g : GroupNo) (d : GroupDef) (t : TargetSet) (stagger : Nat) :
    takeStaggered c g d t stagger (s.after a) = (takeStaggered c g d t stagger s).after a := by
  unfold takeStaggered
  rw [after_freeEntry, after_freeSweep]
  cases s.freeEntry? <;> cases s.freeSweep? <;> simp [after_startSweep]

@[simp] theorem after_takePortTarget (k : Kind) (c : FetchedCopy) :
    takePortTarget k c (s.after a) = (takePortTarget k c s).after a := by
  have hgroup : targetGroup? c.data (s.after a) = targetGroup? c.data s := rfl
  unfold takePortTarget
  dsimp only
  rw [hgroup]
  cases targetGroup? c.data s <;> simp

@[simp] theorem after_takeClear (c : FetchedCopy) : takeClear c (s.after a) = (takeClear c s).after a := by
  simp [takeClear, after_clearPorts]

@[simp] theorem after_takeSetProfile (c : FetchedCopy) :
    takeSetProfile c (s.after a) = (takeSetProfile c s).after a := by simp [takeSetProfile, storeProfile]

@[simp] theorem after_takeSetGroup (c : FetchedCopy) : takeSetGroup c (s.after a) = (takeSetGroup c s).after a := by
  have hbusy (g : GroupNo) : groupBusy g (s.after a) = groupBusy g s := rfl
  unfold takeSetGroup
  cases groupRequest? c.data <;> simp [hbusy]

@[simp] theorem after_takeBindInput (c : FetchedCopy) : takeBindInput c (s.after a) = (takeBindInput c s).after a := by
  have hbusy (g : GroupNo) : groupBusy g (s.after a) = groupBusy g s := rfl
  unfold takeBindInput
  obtain _ | (_ | _) := bindRequest? c.data <;> simp [hbusy]

@[simp] theorem after_acceptOffer (o : RigOffer) : acceptOffer o (s.after a) = (acceptOffer o s).after a := by
  unfold acceptOffer
  cases o.beatMs <;> rfl

@[simp] theorem after_takeSetRig (c : FetchedCopy) : takeSetRig c (s.after a) = (takeSetRig c s).after a := by
  simp [takeSetRig]

@[simp] theorem after_takeKind (k : Kind) (c : FetchedCopy) : takeKind k c (s.after a) = (takeKind k c s).after a := by
  cases k <;> simp [takeKind]

@[simp] theorem after_takeCopy (c : FetchedCopy) : takeCopy c (s.after a) = (takeCopy c s).after a := by
  have htarget (k : Kind) : badTarget k c.data (s.after a) = badTarget k c.data s := rfl
  unfold takeCopy
  cases kindOf c.data <;> simp [htarget]

/-! ## The end of the event -/

@[simp] theorem after_silenceWriter : silenceWriter (s.after a) = (silenceWriter s).after a := by
  unfold silenceWriter
  rw [after_walker, after_writer, after_setWriter, after_ite]

@[simp] theorem after_finishDetach : finishDetach (s.after a) = (finishDetach s).after a := by simp [finishDetach]

@[simp] theorem after_beginSlotWrite : beginSlotWrite (s.after a) = (beginSlotWrite s).after a := by
  unfold beginSlotWrite
  rw [after_walker, after_writer]
  split
  · split
    · rename_i x rest board _ _ _
      cases x <;> rfl
    · rfl
  · rfl

@[simp] theorem after_beginAccess : beginAccess (s.after a) = (beginAccess s).after a := by
  unfold beginAccess
  rw [after_walker]
  split
  · rw [busAccess_congr (u := s) _ rfl rfl]
    split <;> rfl
  · rfl

theorem after_settle : settle (s.after a) = (settle s).after a := by simp [settle]

end Sys2Proof.Machine
end


section
/-! Completed block writes: what lands, what a DONE or REFUSED write frees, and the take made again (O47). -/

set_option Elab.async false

namespace Sys2Proof.Machine

variable {b : BusAccess} {w : BlockWrite} {c : FetchedCopy} {e : EntryNo} {s : State}

/-! ## A write that has landed (R121, R123) -/

/-- The state in which the block write in progress has landed, its take's copy released (R121). -/
def blockLanded (b : BusAccess) (w : BlockWrite) (s : State) : State := releaseCopy w (landParts b.parts (offBus s))

theorem blockLanded_eq (b : BusAccess) (w : BlockWrite) (s : State) :
    blockLanded b w s =
      { s with
        acts := b.parts.map fun x => .busWrite x.1 x.2
        walker := { s.walker with current := none, copy := if w.ofTake then none else s.walker.copy } } := by
  unfold blockLanded releaseCopy
  cases w.ofTake <;> rfl

theorem withHeaderWrite_ne_nil (l : List Access) : withHeaderWrite l ≠ [] := by
  unfold withHeaderWrite
  cases l with
  | nil => exact List.cons_ne_nil _ _
  | cons a l => split <;> simp

theorem countFinished_eq (w : BlockWrite) (s : State) :
    countFinished w s =
      { s with
        walker :=
          { s.walker with
            finishedCount := s.walker.finishedCount + 1, accesses := withHeaderWrite s.walker.accesses }
        regs := { s.regs with attn := s.regs.attn ||| (if w.notify then 1 else 0) } } := by
  have hplace : (s.setWalker { s.walker with finishedCount := s.walker.finishedCount + 1 }).placeHeaderWrite =
      { s with
        walker :=
          { s.walker with
            finishedCount := s.walker.finishedCount + 1, accesses := withHeaderWrite s.walker.accesses } } := by
    unfold State.placeHeaderWrite withHeaderWrite
    rw [setWalker_walker]
    split <;> rfl
  have hnone : s.regs.attn ||| 0 = s.regs.attn := BitVec.or_zero
  unfold countFinished
  rw [hplace]
  split
  · rfl
  · rw [hnone]

/-- The entry that a write finishes is freed (R123). -/
def freeFor (o : Option EntryNo) (s : State) : State := o.elim s fun e => s.setEntry e none

theorem freeFor_eq (o : Option EntryNo) (s : State) : freeFor o s = { s with inflight := (freeFor o s).inflight } := by
  cases o <;> rfl

theorem entry_freeFor (o : Option EntryNo) (s : State) (e : EntryNo) :
    (freeFor o s).entry e = if o = some e then none else s.entry e := by
  cases o with
  | none => rfl
  | some d => simp [freeFor, entry_setEntry, eq_comm]

theorem finalWritten_eq (w : BlockWrite) (s : State) :
    finalWritten w s = w.entry.elim (countFinished w s) fun _ => retake (freeFor w.entry (countFinished w s)) := by
  cases h : w.entry with
  | none => exact finalWritten_of_none w h s
  | some e => exact finalWritten_of_entry w h s

theorem retake_of_ne {u : State} (h : u.walker.state ≠ .stalled) : retake u = u := by
  unfold retake
  split
  next hstalled _ => exact absurd hstalled h
  next => rfl

theorem retake_of_stalled {u : State} (hst : u.walker.state = .stalled) (hcopy : u.walker.copy = some c) :
    retake u = takeCopy c u := by
  unfold retake
  rw [hst, hcopy]

theorem blockWritten_quiet (b : BusAccess) (w : BlockWrite) (s : State) :
    blockWritten b w s.quiet =
      if w.form = .taken then blockLanded b w s else finalWritten w (blockLanded b w s) := by
  unfold blockWritten
  cases w.form <;> rfl

theorem exec_blockWrite (hcur : s.walker.current = some b) (hacc : b.access = .blockWrite w) :
    exec .blockWriteComplete s =
      .next (settle (if w.form = .taken then blockLanded b w s else finalWritten w (blockLanded b w s))) := by
  change execBlockWriteComplete s = _
  simp only [execBlockWriteComplete, hcur, hacc, event_eq, blockWritten_quiet]

/-! ## How the event ends -/

/-- The state that a completed write leaves, where no take is made again. -/
def finishedBody (b : BusAccess) (w : BlockWrite) (s : State) : State :=
  freeFor w.entry (countFinished w (blockLanded b w s))

theorem finalWritten_stays (h : s.walker.state ≠ .stalled ∨ w.entry = none) :
    finalWritten w (blockLanded b w s) = finishedBody b w s := by
  rw [finalWritten_eq, finishedBody]
  cases he : w.entry with
  | none => rfl
  | some e =>
    refine retake_of_ne ?_
    rw [freeFor_eq, countFinished_eq, blockLanded_eq]
    exact h.resolve_right (by rw [he]; exact Option.some_ne_none e)

/-- A TAKEN write lands, and nothing more is done (R121). -/
theorem blockLanded_ends (h : s.settled = true)
    (hmore : s.walker.state ≠ .detaching ∨ s.walker.accesses ≠ [] ∨ s.inflight.items.any (·.isSome) = true) :
    let t := settle (blockLanded b w s)
    OnlyBoard s t ∧ t.writer = s.writer ∧ RegsKept s t ∧ t.inflight = s.inflight ∧
      t.walker.due = s.walker.accesses ∧ WalkerKeptButAccesses (blockLanded b w s) t := by
  intro t
  have heq := blockLanded_eq b w s
  have hframe : BoardFrame s (blockLanded b w s) := by rw [BoardFrame, heq]
  obtain ⟨hboard, hinflight⟩ := hframe.ends
  have hfinish : finishDetach (blockLanded b w s) = blockLanded b w s := finishDetach_waits (by
    rw [heq]; exact hmore.imp_right (.imp_right .inl))
  obtain ⟨hregs, hwriter, hkept, hdue⟩ := settle_waits h hfinish (by rw [heq]) (by rw [heq]) (by rw [heq])
  exact ⟨hboard, hwriter, hregs.trans (by rw [heq]), hinflight, hdue.trans (by rw [heq]; rfl), hkept⟩

theorem finishedBody_eq (b : BusAccess) (w : BlockWrite) (s : State) :
    finishedBody b w s =
      { s with
        acts := b.parts.map fun x => .busWrite x.1 x.2
        walker :=
          { s.walker with
            current := none, copy := if w.ofTake then none else s.walker.copy
            finishedCount := s.walker.finishedCount + 1, accesses := withHeaderWrite s.walker.accesses }
        regs := { s.regs with attn := s.regs.attn ||| (if w.notify then 1 else 0) }
        inflight := (finishedBody b w s).inflight } := by
  unfold finishedBody
  rw [freeFor_eq, countFinished_eq, blockLanded_eq]

theorem entry_finishedBody (b : BusAccess) (w : BlockWrite) (s : State) (e : EntryNo) :
    (finishedBody b w s).entry e = if w.entry = some e then none else s.entry e := by
  rw [finishedBody, entry_freeFor, countFinished_eq, blockLanded_eq]
  rfl

/-- A DONE or REFUSED write is counted and frees its entry; a header write is due, so no detach ends (R123, R125). -/
theorem finishedBody_ends (h : s.settled = true) :
    let t := settle (finishedBody b w s)
    OnlyBoard s t ∧ t.writer = s.writer ∧
      t.regs = { s.regs with attn := s.regs.attn ||| (if w.notify then 1 else 0) } ∧
      t.inflight = (finishedBody b w s).inflight ∧
      t.walker.due = withHeaderWrite s.walker.accesses ∧ WalkerKeptButAccesses (finishedBody b w s) t := by
  intro t
  have heq := finishedBody_eq b w s
  have hfinish : finishDetach (finishedBody b w s) = finishedBody b w s := finishDetach_waits (by
    rw [heq]; exact .inr (.inl (withHeaderWrite_ne_nil _)))
  obtain ⟨hregs, hwriter, hkept, hdue⟩ := settle_waits h hfinish (by rw [heq]) (by rw [heq]) (by rw [heq])
  refine ⟨settle_onlyBoard ?_, hwriter, hregs.trans (by rw [heq]), settle_inflight _, hdue.trans (by rw [heq]; rfl),
    hkept⟩
  rw [heq]
  exact ⟨⟨rfl, ⟨rfl, rfl⟩, ⟨rfl, rfl, rfl⟩, rfl, rfl⟩, rfl, rfl, rfl⟩

/-! ## The take made again (R122) -/

/-- The state in which the block of a stalled copy is read once more, the write finished: the state a retake starts
from, but for the wires. -/
def readAgain (w : BlockWrite) (e : EntryNo) (c : FetchedCopy) (s : State) : State :=
  { s with
    inflight := s.inflight.set e none
    regs := { s.regs with attn := s.regs.attn ||| (if w.notify then 1 else 0) }
    walker :=
      { s.walker with
        finishedCount := s.walker.finishedCount + 1
        accesses := withHeaderWrite s.walker.accesses
        current :=
          some { access := .blockRead c.address, read := some (c.address, 64), parts := [], atHalt := false } } }

theorem exec_readAgain (hst : s.walker.state = .stalled) (hposted : numAt c.data 8 = 1) :
    exec (.blockReadComplete c.data) (readAgain w e c s) =
      .next (settle (takeCopy c (copyHeld c (readAgain w e c s).quiet))) := by
  have hcounts : readCounts (readAgain w e c s).quiet
      { access := .blockRead c.address, read := some (c.address, 64), parts := [], atHalt := false } = true :=
    (readCounts_iff _ _).2 ⟨rfl, fun hd => by cases hst.symm.trans hd⟩
  have hblock : blockState c.data = .posted := by
    have hbyte : byteAt c.data 8 = 1 := BitVec.eq_of_toNat_eq hposted
    simp [blockState, hbyte]
  rw [exec_blockRead hcounts rfl rfl, blockRead, hblock]
  rfl

/-- The body of the write starts its retake from the same state, with its parts on the wires. -/
theorem finishedBody_eq_after (hcopy : s.walker.copy = some c) (hof : w.ofTake = false) (he : w.entry = some e) :
    finishedBody b w s =
      (copyHeld c (readAgain w e c s).quiet).after (b.parts.map fun x => .busWrite x.1 x.2) := by
  rw [finishedBody, he, countFinished_eq, blockLanded_eq, hof, hcopy]
  simp [freeFor, readAgain, copyHeld, State.after, State.setEntry, State.quiet, endAccess, State.setWalker]

theorem finalWritten_retakes (hst : s.walker.state = .stalled) (hcopy : s.walker.copy = some c)
    (hof : w.ofTake = false) (he : w.entry = some e) :
    finalWritten w (blockLanded b w s) =
      (takeCopy c (copyHeld c (readAgain w e c s).quiet)).after (b.parts.map fun x => .busWrite x.1 x.2) := by
  have hbody : finishedBody b w s = _ := finishedBody_eq_after hcopy hof he
  rw [finalWritten_eq, ← after_takeCopy, ← hbody]
  simp only [he, Option.elim_some]
  rw [← he]
  refine retake_of_stalled (u := finishedBody b w s) ?_ ?_
  · rw [hbody]; exact hst
  · rw [hbody]; rfl

/-- Settles O47: a write that frees nothing a stalled walker waits for lands and is counted; any other makes the take
as the block read would, whatever it has put on the wires. -/
theorem blockWritesFinishRequests : Obligations.BlockWritesFinishRequests := by
  refine ⟨fun b w s h hcur hacc hmore hstay => ⟨_, exec_blockWrite hcur hacc, ?_⟩,
    fun b w e c s hst hcopy hposted hcur hacc hof hform he => ?_⟩
  · by_cases hform : w.form = .taken
    · rw [if_pos hform]
      obtain ⟨hboard, hwriter, hregs, hinflight, hdue, hkept⟩ :=
        blockLanded_ends (b := b) (w := w) h (hmore.resolve_left (not_not.2 hform))
      refine ⟨hboard, hwriter, (settle_acts _).trans (by rw [blockLanded_eq]), ?_,
        fun _ => ⟨hregs, hinflight, hdue, ?_⟩, fun hno => absurd hform hno⟩
      · rw [hkept, blockLanded_eq]
      · rw [hkept, blockLanded_eq]
    · rw [if_neg hform, finalWritten_stays (hstay.imp_right fun hst => hst.resolve_left hform)]
      obtain ⟨hboard, hwriter, hregs, hinflight, hdue, hkept⟩ := finishedBody_ends (b := b) (w := w) h
      refine ⟨hboard, hwriter, (settle_acts _).trans (by rw [finishedBody_eq]), ?_, fun htaken => absurd htaken hform,
        fun _ => ⟨?_, hdue, ?_, fun e => ?_⟩⟩
      · rw [hkept, finishedBody_eq]
      · cases hnotify : w.notify
        · exact hregs.trans (by rw [hnotify]; simp)
        · exact hregs.trans (by rw [hnotify]; rfl)
      · rw [hkept, finishedBody_eq]
      · rw [State.entry, hinflight]
        exact entry_finishedBody b w s e
  · rw [exec_blockWrite hcur hacc, if_neg hform, finalWritten_retakes hst hcopy hof he, after_settle]
    exact ⟨_, _, rfl, exec_readAgain hst hposted, rfl⟩

end Sys2Proof.Machine
end


section
/-! What gives the walker no new read and posts no slot twice: the operations of a port and of a take (R114, R117,
R178). -/

set_option Elab.async false

namespace Sys2Proof.Machine

variable {p : PortNo} {s t u : State}

/-! ## The reads that are due (R117) -/

/-- The reads among the accesses still to be made. -/
def Walker.reads (w : Walker) : List Access := w.due.filter Access.isRead

theorem reads_eq (w : Walker) :
    w.reads =
      (w.current.elim [] fun b => if b.atHalt then [] else [b.access]).filter Access.isRead ++
        w.accesses.filter Access.isRead := by
  rw [Walker.reads, Walker.due, List.filter_append]
  cases w.current <;> rfl

theorem reads_congr {v w : Walker} (hc : v.current = w.current) (ha : v.accesses = w.accesses) : v.reads = w.reads := by
  rw [reads_eq, reads_eq, hc, ha]

theorem reads_append (w : Walker) (l : List Access) :
    Walker.reads { w with accesses := w.accesses ++ l } = w.reads ++ l.filter Access.isRead := by
  rw [reads_eq, reads_eq, List.filter_append, List.append_assoc]

/-- Whether the anchor stands where the walker's state has one (R114). -/
def Walker.Anchored (w : Walker) : Prop :=
  match w.state with
  | .detached => w.anchor = .absent
  | .halted _ => True
  | _ => w.anchor ≠ .absent

/-- The invariant of the walker, by its reads (R114, R117). -/
structure Walker.Sound (w : Walker) : Prop where
  one : w.reads.length ≤ 1
  kinds : ∀ a ∈ w.reads, w.state.mayRead a = true
  anchored : w.Anchored
  board : w.anchor = .absent ∨ w.board.isSome = true

theorem mayRead_of_write {a : Access} (h : a.isRead = false) (st : WalkerState) : st.mayRead a = true := by
  cases a with
  | blockWrite _ => rfl
  | headerWrite => rfl
  | _ => cases h

theorem walkerSound_iff (s : State) : s.walkerSound = true ↔ s.walker.Sound := by
  have hkinds : (s.walker.due.all s.walker.state.mayRead = true) ↔
      ∀ a ∈ s.walker.reads, s.walker.state.mayRead a = true := by
    rw [List.all_eq_true]
    refine ⟨fun h a ha => h a (List.mem_filter.1 ha).1, fun h a ha => ?_⟩
    cases hr : a.isRead
    · exact mayRead_of_write hr _
    · exact h a (List.mem_filter.2 ⟨ha, hr⟩)
  have hparts : s.walker.Sound ↔
      ((s.walker.reads.length ≤ 1 ∧ ∀ a ∈ s.walker.reads, s.walker.state.mayRead a = true) ∧ s.walker.Anchored) ∧
        (s.walker.anchor = .absent ∨ s.walker.board.isSome = true) :=
    ⟨fun ⟨one, kinds, anchored, board⟩ => ⟨⟨⟨one, kinds⟩, anchored⟩, board⟩,
      fun ⟨⟨⟨one, kinds⟩, anchored⟩, board⟩ => ⟨one, kinds, anchored, board⟩⟩
  unfold State.walkerSound Walker.sound
  rw [hparts, Bool.and_eq_true, Bool.and_eq_true, Bool.and_eq_true, hkinds, decide_eq_true_eq,
    List.countP_eq_length_filter, Bool.or_eq_true, beq_iff_eq]
  refine and_congr_left' (and_congr_right' ?_)
  unfold Walker.Anchored
  cases s.walker.state <;> simp

/-! ## Steady changes -/

/-- From `s` to `t` the walker's state, anchor and board stay, no read becomes due, and no slot is posted twice. -/
structure Steady (s t : State) : Prop where
  state : t.walker.state = s.walker.state
  anchor : t.walker.anchor = s.walker.anchor
  board : t.walker.board = s.walker.board
  reads : t.walker.reads.Sublist s.walker.reads
  once : s.writer.posting.Nodup → t.writer.posting.Nodup

theorem Walker.Sound.steady (h : s.walker.Sound) (g : Steady s t) : t.walker.Sound where
  one := g.reads.length_le.trans h.one
  kinds := fun a ha => by rw [g.state]; exact h.kinds a (g.reads.subset ha)
  anchored := by
    have hs := h.anchored
    unfold Walker.Anchored at hs ⊢
    rw [g.state, g.anchor]
    exact hs
  board := by rw [g.anchor, g.board]; exact h.board

namespace Steady

theorem refl (s : State) : Steady s s := ⟨rfl, rfl, rfl, .refl _, id⟩

theorem trans (h : Steady s t) (g : Steady t u) : Steady s u :=
  ⟨g.state.trans h.state, g.anchor.trans h.anchor, g.board.trans h.board, g.reads.trans h.reads, g.once ∘ h.once⟩

theorem of_same (hwalker : t.walker = s.walker) (hposting : t.writer.posting = s.writer.posting) : Steady s t := by
  refine ⟨?_, ?_, ?_, ?_, fun h => by rwa [hposting]⟩ <;> rw [hwalker]

/-- The walker changes, but for its state, its anchor, its board and the reads due. -/
theorem setWalker (h : Steady s t) {w : Walker} (hreads : w.reads.Sublist t.walker.reads)
    (hstate : w.state = t.walker.state := by exact rfl) (hanchor : w.anchor = t.walker.anchor := by exact rfl)
    (hboard : w.board = t.walker.board := by exact rfl) : Steady s (t.setWalker w) :=
  h.trans ⟨hstate, hanchor, hboard, hreads, id⟩

/-- The walker changes, but for its state, its anchor, its board and its accesses. -/
theorem setWalkerKept (h : Steady s t) {w : Walker} (hcurrent : w.current = t.walker.current)
    (haccesses : w.accesses = t.walker.accesses) (hstate : w.state = t.walker.state := by exact rfl)
    (hanchor : w.anchor = t.walker.anchor := by exact rfl) (hboard : w.board = t.walker.board := by exact rfl) :
    Steady s (t.setWalker w) :=
  h.setWalker (by rw [reads_congr hcurrent haccesses]) hstate hanchor hboard

/-- A write is placed. -/
theorem place (h : Steady s t) {a : Access} (ha : a.isRead = false := by exact rfl) : Steady s (t.place a) := by
  refine h.setWalker ?_
  rw [reads_append, List.filter_cons_of_neg (by rw [ha]; exact Bool.false_ne_true), List.filter_nil, List.append_nil]

theorem placeHeaderWrite (h : Steady s t) : Steady s t.placeHeaderWrite := by
  unfold State.placeHeaderWrite
  split
  · exact h
  · exact h.place

theorem modPort (h : Steady s t) (p : PortNo) (f : Port → Port) : Steady s (t.modPort p f) :=
  h.trans (of_same rfl rfl)

theorem setEntry (h : Steady s t) (e : EntryNo) (x : Option Entry) : Steady s (t.setEntry e x) :=
  h.trans (of_same rfl rfl)

theorem setGroup (h : Steady s t) (g : GroupNo) (x : Group) : Steady s (t.setGroup g x) := h.trans (of_same rfl rfl)

theorem setBinding (h : Steady s t) (n : LineNo) (x : Option Binding) : Steady s (t.setBinding n x) :=
  h.trans (of_same rfl rfl)

theorem setSweep (h : Steady s t) (r : SweepNo) (x : Option Sweep) : Steady s (t.setSweep r x) :=
  h.trans (of_same rfl rfl)

theorem setLine (h : Steady s t) (n : LineNo) (l : Line) : Steady s (t.setLine n l) := h.trans (of_same rfl rfl)

theorem setReader (h : Steady s t) (r : Reader) : Steady s (t.setReader r) := h.trans (of_same rfl rfl)

theorem raise (h : Steady s t) (c : Cause) : Steady s (t.raise c) := h.trans (of_same rfl rfl)

theorem emit (h : Steady s t) (a : List WireAct) : Steady s (t.emit a) := h.trans (of_same rfl rfl)

theorem quiet (s : State) : Steady s s.quiet := of_same rfl rfl

theorem post (h : Steady s t) (x : Slot) : Steady s (t.post x) := by
  refine h.trans ⟨by simp, by simp, by simp, by simp, fun hnodup => ?_⟩
  unfold State.post
  split
  · exact hnodup
  · rename_i hnot
    rw [setWriter_writer, List.nodup_append]
    exact ⟨hnodup, List.nodup_singleton x, fun a ha b hb heq => hnot (by rwa [← List.mem_singleton.1 hb, ← heq])⟩

theorem recordOutcome (h : Steady s t) (e : EntryNo) (p : PortNo) (o : OutcomeCode) :
    Steady s (t.recordOutcome e p o) := h.trans (of_same (by simp) (by simp))

theorem finishEntry (h : Steady s t) (e : EntryNo) : Steady s (t.finishEntry e) := by
  unfold State.finishEntry
  split
  · exact h
  · split
    · exact (h.setEntry e _).place
    · exact h

theorem giveEach (p : PortNo) (o : OutcomeCode) (l : List EntryNo) (h : Steady s t) :
    Steady s (giveEach p o l t) := by
  induction l generalizing t with
  | nil => exact h
  | cons e l ih => exact ih ((h.recordOutcome e p o).finishEntry e)

/-! ## Ports -/

/-- A run of changes of a port's record (R12, R14, R30). -/
theorem run {gives : Bool} (h : Steady s t) (hr : PortRun p gives t u) : Steady s u := by
  induction hr with
  | refl => exact h
  | modPort _ f _ ih => exact ih.modPort p f
  | raise _ c ih => exact ih.raise c
  | post _ ih => exact ih.post _
  | emit _ a ih => exact ih.emit a
  | giveAll _ _ o ih => exact giveEach p o _ (ih.modPort p _)

theorem drawStamp (h : Steady s t) (p : PortNo) : Steady s (t.drawStamp p) := h.trans (of_same rfl rfl)

theorem atPort {f : State → State} (h : Steady s (f t)) : Steady s (t.atPort p f) := by
  unfold State.atPort State.postIfChanged
  split
  · exact h
  · exact h.post _

theorem partAlive (h : Steady s t) (p : PortNo) : Steady s (partAlive p t) := by
  have hstamp : Steady s ((cutRail p .parted t).drawStamp p) :=
    (h.run ((PortRun.refl (gives := false)).cutRail .parted)).drawStamp p
  unfold Machine.partAlive
  exact ((hstamp.modPort p _).run (PortRun.refl.giveAll rfl .parted)).run PortRun.refl.enterOff

theorem takeParting (h : Steady s t) (p : PortNo) : Steady s (takeParting p t) := by
  unfold Machine.takeParting
  split
  · exact h.partAlive p
  · split
    · exact h.run (PortRun.refl.cutRail _).enterOff
    · exact h

theorem leaveReader (h : Steady s t) (p : PortNo) : Steady s (leaveReader p t) := by
  have hleft (waits : Bool) : Steady s
      (if waits then (t.modPort p fun x => { x with toReader := x.toReader.filter (· != .join) }).setReader
          { (t.modPort p fun x => { x with toReader := x.toReader.filter (· != .join) }).reader with
            queue := (t.modPort p fun x => { x with toReader := x.toReader.filter (· != .join) }).reader.queue.erase p }
        else t.modPort p fun x => { x with toReader := x.toReader.filter (· != .join) }) := by
    split
    · exact (h.modPort p _).setReader _
    · exact h.modPort p _
  unfold Machine.leaveReader
  dsimp only
  split
  · split
    · exact hleft _
    · exact (hleft _).modPort p _
  · exact h

theorem removePlug (h : Steady s t) (p : PortNo) : Steady s (removePlug p t) :=
  (((h.run cutRail_giveUp_run).leaveReader p).modPort p _).run removePlug_run

theorem joinWaiters (h : Steady s t) (p : PortNo) (ref : Option EntryNo) : Steady s (joinWaiters p ref t) := by
  cases ref with
  | none => exact h
  | some e => exact h.modPort p fun x => { x with waiters := x.waiters ++ [e] }

/-! ## Target sets and visits (R11, R12, R159) -/

theorem targetSet (h : Steady s t) (p : PortNo) (x : TargetSet) (ref : Option EntryNo) :
    Steady s (targetSet p x ref t).2 := by
  cases hd : declines (t.port p) x with
  | some o => rw [targetSet_declined p t hd]; exact h
  | none =>
    have hstored : Steady s (carryOut p x (t.port p).target (storeTarget p x.target (t.drawStamp p))) :=
      (h.drawStamp p).run ((PortRun.refl.storeTarget _).carryOut _ _)
    rw [targetSet_taken p t hd]
    refine atPort ?_
    unfold takeTarget
    dsimp only
    split
    · exact hstored.joinWaiters p ref
    · exact hstored

theorem handTargets (x : TargetSet) (ref : Option EntryNo) (ps : List PortNo) (a : Answers) (h : Steady s t) :
    Steady s (handTargets x ref ps a t).2 := by
  induction ps generalizing a t with
  | nil => exact h
  | cons p ps ih => exact ih _ (h.targetSet p x ref)

theorem clearPorts (ticket : Nat) (ps : List PortNo) (o : Table OutcomeCode 16) (h : Steady s t) :
    Steady s (clearPorts ticket ps o t).2 := by
  induction ps generalizing o t with
  | nil => exact h
  | cons p ps ih => exact ih _ (atPort (h.run (PortRun.refl.clearPort ticket)))

theorem recordAnswer (h : Steady s t) (o : Origin) (p : PortNo) (a : Answer) : Steady s (recordAnswer o p a t) := by
  unfold Machine.recordAnswer
  split
  · exact h.recordOutcome _ _ _
  · exact h

theorem visitAt (h : Steady s t) (x : Sweep) (o : Option PortNo) : Steady s (visitAt x o t) := by
  unfold Machine.visitAt
  split
  · unfold visitMember
    dsimp only
    split
    · exact h.recordAnswer _ _ _
    · exact (h.targetSet _ _ _).recordAnswer _ _ _
  · exact h

theorem freeSweep (h : Steady s t) (r : SweepNo) (x : Sweep) : Steady s (freeSweep r x t) := h.trans (of_same rfl rfl)

theorem runVisits (n : Nat) (r : SweepNo) (h : Steady s t) : Steady s (runVisits n r t).2 := by
  induction n generalizing t with
  | zero => exact h
  | succ n ih =>
    rw [runVisits_succ]
    cases t.sweep r with
    | none => exact h
    | some x =>
      have hvisit := h.visitAt x (t.members x.group)[x.cursor]?
      dsimp only
      split_ifs
      · exact hvisit.freeSweep r x
      · exact ih (hvisit.setSweep r _)
      · exact hvisit.setSweep r _

theorem startSweep (h : Steady s t) (r : SweepNo) (g : GroupNo) (d : GroupDef) (x : TargetSet) (o : Origin) (b : Nat) :
    Steady s (startSweep r g d x o b t).2 := by
  exact runVisits _ r ((h.setGroup _ _).setSweep _ _)

theorem judgeEdge (h : Steady s t) (n : LineNo) (toHigh : Bool) : Steady s (judgeEdge n toHigh t).2 := by
  unfold Machine.judgeEdge
  split
  · exact h
  · split
    · split
      · exact h
      · exact h
      · exact h.startSweep ..
    · exact h

end Steady

/-! ## Takes (R121) -/

/-- The walker may take a copy: no read is due, it has an anchor, and its board is known. -/
structure Walker.Free (w : Walker) : Prop where
  reads : w.reads = []
  anchor : w.anchor ≠ .absent
  board : w.board.isSome = true

theorem Walker.Free.steady (h : s.walker.Free) (g : Steady s t) : t.walker.Free :=
  ⟨List.sublist_nil.1 (h.reads ▸ g.reads), g.anchor ▸ h.anchor, g.board ▸ h.board⟩

theorem Walker.Free.sound {w : Walker} (h : w.Free) (hd : w.state ≠ .detached) : w.Sound where
  one := by rw [h.reads]; exact Nat.zero_le 1
  kinds := by rw [h.reads]; exact nofun
  anchored := by
    have ha := h.anchor
    unfold Walker.Anchored
    split
    · contradiction
    · trivial
    · exact ha
  board := .inr h.board

/-- A read is placed where none is due. -/
theorem sound_of_placed {w : Walker} {a : Access} (hreads : w.reads = []) (hmay : w.state.mayRead a = true)
    (hanchored : w.Anchored) (hboard : w.anchor = .absent ∨ w.board.isSome = true) :
    Walker.Sound { w with accesses := w.accesses ++ [a] } where
  one := by
    rw [reads_append, hreads]
    exact List.length_filter_le _ _
  kinds := fun x hx => by
    rw [reads_append, hreads] at hx
    rw [List.mem_singleton.1 (List.mem_filter.1 hx).1]
    exact hmay
  anchored := hanchored
  board := hboard

/-- From `s` to `t` a take has been made, or as much of it as could be. -/
structure TakesUp (s t : State) : Prop where
  sound : s.walker.Free → t.walker.Sound
  once : s.writer.posting.Nodup → t.writer.posting.Nodup

theorem Steady.takesUp (h : Steady s t) (g : TakesUp t u) : TakesUp s u :=
  ⟨fun hf => g.sound (hf.steady h), g.once ∘ h.once⟩

/-- The walker with its anchor at the block taken (R121). -/
def Walker.moved (w : Walker) (c : FetchedCopy) : Walker :=
  { w with state := .fetching, anchor := .block c.address, takenCount := w.takenCount + 1 }

namespace TakesUp

/-- The header write and the link read that end a take, once the anchor has moved. -/
theorem look {c : FetchedCopy} {form : BlockForm} (h : Steady (Machine.moveAnchor c form s) t) :
    TakesUp s (lookFromAnchor t) := by
  have hplaced : Steady (s.setWalker (s.walker.moved c)) t.placeHeaderWrite :=
    ((Steady.refl _).place.trans h).placeHeaderWrite
  refine ⟨fun hs => ?_, hplaced.once⟩
  have hmoved : (s.setWalker (s.walker.moved c)).walker.Free := ⟨hs.reads, nofun, hs.board⟩
  have hfree := hmoved.steady hplaced
  have hstate : t.placeHeaderWrite.walker.state = .fetching := hplaced.state
  exact sound_of_placed hfree.reads (by rw [hstate]; rfl)
    (hfree.sound (by rw [hstate]; exact WalkerState.noConfusion)).anchored (.inr hfree.board)

theorem moveAnchor (c : FetchedCopy) (form : BlockForm) (s : State) : TakesUp s (lookFromAnchor (moveAnchor c form s)) :=
  look (.refl _)

theorem refuse (c : FetchedCopy) (r : RefusalReason) (s : State) : TakesUp s (refuse c r s) := moveAnchor c _ s

theorem complete (c : FetchedCopy) (outs : Table OutcomeCode 16) (s : State) : TakesUp s (complete c outs s) :=
  moveAnchor c _ s

theorem stall (c : FetchedCopy) (s : State) : TakesUp s (stall c s) :=
  ⟨fun h => Walker.Free.sound ⟨h.reads, h.anchor, h.board⟩ WalkerState.noConfusion, id⟩

theorem takeUnstaggered (c : FetchedCopy) (x : TargetSet) (ps : List PortNo) (s : State) :
    TakesUp s (takeUnstaggered c x ps s) := by
  unfold Machine.takeUnstaggered
  split
  · split
    · exact stall c s
    · exact ((Steady.handTargets _ _ ps _ (.refl s)).setEntry _ _).takesUp (moveAnchor c _ _)
  · exact (Steady.handTargets _ _ ps _ (.refl s)).takesUp (complete c _ _)

theorem takeStaggered (c : FetchedCopy) (g : GroupNo) (d : GroupDef) (x : TargetSet) (n : Nat) (s : State) :
    TakesUp s (takeStaggered c g d x n s) := by
  unfold Machine.takeStaggered
  split
  · rename_i e r _ _
    dsimp only
    have hstarted := (Steady.setEntry (.refl s) e (some
      { block := c.address, notify := flagNotify c.data, pending := portSet d.members, outcomes := noOutcomes
        status := .opened })).startSweep r g d x (.request e) n
    exact hstarted.takesUp (look ((Steady.refl _).finishEntry e))
  · exact stall c s

theorem takePortTarget (k : Kind) (c : FetchedCopy) (s : State) : TakesUp s (takePortTarget k c s) := by
  unfold Machine.takePortTarget
  dsimp only
  split
  · split
    · exact refuse c _ s
    · split
      · exact takeUnstaggered c _ _ s
      · exact takeStaggered c _ _ _ _ s
  · exact takeUnstaggered c _ _ s

theorem storeProfile (c : FetchedCopy) (list : Profile) (s : State) : TakesUp s (storeProfile c list s) := by
  have hhanded : Steady s (handReplacements list (maskPorts (targetField c.data)) s) := by
    rw [handReplacements_frame]; exact .of_same rfl rfl
  exact hhanded.takesUp (complete c _ _)

theorem takeSetProfile (c : FetchedCopy) (s : State) : TakesUp s (takeSetProfile c s) := by
  unfold Machine.takeSetProfile
  dsimp only
  split_ifs
  · exact refuse c _ s
  · exact storeProfile c _ s
  · exact refuse c _ s
  · exact ⟨fun h => sound_of_placed (w := { s.walker with state := .fetching, copy := some c }) h.reads rfl h.anchor
      (.inr h.board), id⟩

theorem takeProfileList (c : FetchedCopy) (data : List Byte) (s : State) : TakesUp s (takeProfileList c data s) := by
  unfold Machine.takeProfileList
  dsimp only
  split
  · exact storeProfile c _ s
  · exact refuse c _ s

theorem takeSetGroup (c : FetchedCopy) (s : State) : TakesUp s (takeSetGroup c s) := by
  unfold Machine.takeSetGroup
  split
  · exact refuse c _ s
  · dsimp only
    split
    · exact refuse c _ s
    · exact ((Steady.refl s).setGroup _ _).takesUp (complete c _ _)

theorem takeBindInput (c : FetchedCopy) (s : State) : TakesUp s (takeBindInput c s) := by
  unfold Machine.takeBindInput
  split
  · exact refuse c _ s
  · split
    · exact refuse c _ s
    · exact ((Steady.refl s).setBinding _ _).takesUp (complete c _ _)
  · split
    · exact refuse c _ s
    · exact ((Steady.refl s).setBinding _ _).takesUp (complete c _ _)

theorem takeSetRig (c : FetchedCopy) (s : State) : TakesUp s (takeSetRig c s) := by
  have haccepted (o : RigOffer) : Steady s (acceptOffer o s) := by rw [acceptOffer_frame]; exact .of_same rfl rfl
  unfold Machine.takeSetRig
  dsimp only
  split_ifs
  · exact refuse c _ s
  · exact refuse c _ s
  · exact (haccepted _).takesUp (complete c _ _)

theorem takeKind (k : Kind) (c : FetchedCopy) (s : State) : TakesUp s (takeKind k c s) := by
  cases k with
  | clear => exact (Steady.clearPorts _ _ _ (.refl s)).takesUp (complete c _ _)
  | setProfile => exact takeSetProfile c s
  | setGroup => exact takeSetGroup c s
  | bindInput => exact takeBindInput c s
  | setRig => exact takeSetRig c s
  | _ => exact takePortTarget _ c s

theorem takeCopy (c : FetchedCopy) (s : State) : TakesUp s (takeCopy c s) := by
  unfold Machine.takeCopy
  split
  · exact refuse c _ s
  · split_ifs
    · exact refuse c _ s
    · exact refuse c _ s
    · exact takeKind _ c s

end TakesUp

end Sys2Proof.Machine
end


section
/-! The walker's events keep its invariant, and leave nothing waiting that should have begun (R114 to R127, R180). -/

set_option Elab.async false

namespace Sys2Proof.Machine

variable {b : BusAccess} {s t u : State}

/-- From `s` to `t` the walker's invariant is kept and no slot is posted twice. -/
structure Guards (s t : State) : Prop where
  sound : s.walker.Sound → t.walker.Sound
  once : s.writer.posting.Nodup → t.writer.posting.Nodup

theorem Steady.guards (h : Steady s t) : Guards s t := ⟨fun hs => hs.steady h, h.once⟩

theorem Guards.trans (h : Guards s t) (g : Guards t u) : Guards s u := ⟨g.sound ∘ h.sound, g.once ∘ h.once⟩

/-! ## The end of an event -/

theorem settled_intro
    (hbegun : ∀ a rest, s.walker.current = none → s.walker.accesses = a :: rest → s.walker.mayBegin a = false)
    (hwrites : s.walker.state.attached = true →
      s.writer.current ≠ none ∨ s.writer.posting = [] ∨ s.walker.board = none)
    (hsilent : s.walker.state.attached = false →
      s.writer.posting = [] ∧ s.writer.current.all (·.orphan) = true)
    (hdetached : ¬(s.walker.state = .detaching ∧ s.inflight.items.all (·.isNone) ∧ s.walker.accesses = [] ∧
      s.walker.current = none)) : s.settled = true := by
  unfold State.settled
  rw [Bool.and_eq_true, Bool.and_eq_true]
  refine ⟨⟨?_, ?_⟩, ?_⟩
  · split
    · rename_i a rest hcur hacc
      rw [hbegun a rest hcur hacc]; rfl
    · rfl
  · cases hatt : s.walker.state.attached
    · simpa using hsilent hatt
    · have := hwrites hatt
      simp only [if_true, Bool.or_eq_true, Option.isSome_iff_ne_none, List.isEmpty_iff, Option.isNone_iff_eq_none]
      tauto
  · rw [Bool.not_eq_true', Bool.eq_false_iff]
    refine mt (fun h => ?_) hdetached
    simpa [and_assoc] using h

theorem beginAccess_begun (v : State) :
    ∀ a rest, (beginAccess v).walker.current = none → (beginAccess v).walker.accesses = a :: rest →
      (beginAccess v).walker.mayBegin a = false := by
  intro a rest hcur hacc
  unfold beginAccess at hcur hacc ⊢
  split at hcur
  · rename_i x l hnone hlist
    simp only [hnone, hlist] at hacc ⊢
    split at hcur
    · cases hcur
    · rename_i hnot
      rw [if_neg hnot, hlist] at hacc
      cases hacc
      rw [if_neg hnot]
      simpa using hnot
  · rename_i hno
    exact absurd hacc fun hacc => hno a rest hcur (by simpa using hacc)

theorem beginSlotWrite_rests (v : State) (hatt : v.walker.state.attached = true) :
    (beginSlotWrite v).writer.current ≠ none ∨ (beginSlotWrite v).writer.posting = [] ∨ v.walker.board = none := by
  unfold beginSlotWrite
  rw [if_pos hatt]
  split
  · exact .inl (Option.some_ne_none _)
  · rename_i hno
    cases hcur : v.writer.current with
    | some w => exact .inl (Option.some_ne_none w)
    | none =>
      cases hposting : v.writer.posting with
      | nil => exact .inr (.inl rfl)
      | cons x rest =>
        cases hboard : v.walker.board with
        | none => exact .inr (.inr rfl)
        | some board => exact absurd hboard (hno x rest board hcur hposting)

theorem silenceWriter_silent (v : State) (hatt : v.walker.state.attached = false) :
    (silenceWriter v).writer.posting = [] ∧ (silenceWriter v).writer.current.all (·.orphan) = true := by
  unfold silenceWriter
  rw [if_neg (by rw [hatt]; exact Bool.false_ne_true)]
  refine ⟨rfl, ?_⟩
  rw [setWriter_writer]
  cases v.writer.current <;> rfl

theorem finishDetach_detached (u : State) :
    ¬((finishDetach u).walker.state = .detaching ∧ (finishDetach u).inflight.items.all (·.isNone) ∧
      (finishDetach u).walker.accesses = [] ∧ (finishDetach u).walker.current = none) := by
  unfold finishDetach
  split
  · exact fun h => WalkerState.noConfusion h.1
  · assumption

theorem beginAccess_idle {v : State} (hacc : (beginAccess v).walker.accesses = [])
    (hcur : (beginAccess v).walker.current = none) : v.walker.accesses = [] ∧ v.walker.current = none := by
  unfold beginAccess at hacc hcur
  split at hcur
  · rename_i x l hnone hlist
    simp only [hnone, hlist] at hacc
    split at hcur
    · cases hcur
    · rename_i hnot
      rw [if_neg hnot, hlist] at hacc
      cases hacc
  · rename_i hno
    exact ⟨by simpa using hacc, hcur⟩

theorem beginAccess_steady (s : State) : Steady s (beginAccess s) := by
  have hkept := beginAccess_walkerKept s
  unfold WalkerKeptButAccesses at hkept
  refine ⟨by rw [hkept], by rw [hkept], by rw [hkept], ?_, by simp⟩
  rw [Walker.reads, beginAccess_due]
  exact .refl _

/-- Every event ends with nothing left waiting that it should have begun (R117, R125, R178, R180). -/
theorem settle_settled (u : State) : (settle u).settled = true := by
  have hbegun := beginAccess_steady (beginSlotWrite (silenceWriter (finishDetach u)))
  have hwalker : (beginSlotWrite (silenceWriter (finishDetach u))).walker = (finishDetach u).walker := by simp
  have hstate : (settle u).walker.state = (finishDetach u).walker.state := hbegun.state.trans (by rw [hwalker])
  have hboard : (settle u).walker.board = (finishDetach u).walker.board := hbegun.board.trans (by rw [hwalker])
  have hwriter : (settle u).writer = (beginSlotWrite (silenceWriter (finishDetach u))).writer := beginAccess_writer _
  refine settled_intro (beginAccess_begun _) (fun hatt => ?_) (fun hatt => ?_) fun h => ?_
  · rw [hstate] at hatt
    rw [hwriter, hboard, show silenceWriter (finishDetach u) = finishDetach u from if_pos hatt]
    exact beginSlotWrite_rests _ hatt
  · rw [hstate] at hatt
    rw [hwriter, beginSlotWrite, if_neg (by rw [silenceWriter_walker, hatt]; exact Bool.false_ne_true)]
    exact silenceWriter_silent _ hatt
  · obtain ⟨hdetaching, hnone, hacc, hcur⟩ := h
    obtain ⟨hacc', hcur'⟩ := beginAccess_idle hacc hcur
    rw [hwalker] at hacc' hcur'
    have hinflight : (settle u).inflight = (finishDetach u).inflight := by simp [settle]
    exact finishDetach_detached u ⟨hstate ▸ hdetaching, hinflight ▸ hnone, hacc', hcur'⟩

theorem finishDetach_guards (u : State) : Guards u (finishDetach u) := by
  refine ⟨fun h => ?_, fun h => by simpa using h⟩
  unfold finishDetach
  split
  · rename_i hends
    obtain ⟨-, -, hacc, hcur⟩ := hends
    have hreads : u.walker.detached.reads = [] := by
      rw [reads_eq, show u.walker.detached.current = none from hcur, show u.walker.detached.accesses = [] from hacc]
      rfl
    exact
      { one := (congrArg List.length hreads).le.trans (Nat.zero_le 1)
        kinds := fun a ha => absurd (hreads ▸ ha : a ∈ []) List.not_mem_nil
        anchored := rfl
        board := .inl rfl }
  · exact h

theorem beginSlotWrite_steady (s : State) : Steady s (beginSlotWrite s) := by
  refine ⟨by simp, by simp, by simp, by simp, fun h => ?_⟩
  rcases beginSlotWrite_writer s with hkept | ⟨x, rest, hposting, -, hrest, -⟩
  · rwa [hkept]
  · rw [hrest]
    rw [hposting] at h
    exact h.of_cons

theorem silenceWriter_steady (s : State) : Steady s (silenceWriter s) := by
  refine ⟨by simp, by simp, by simp, by simp, fun h => ?_⟩
  unfold silenceWriter
  split
  · exact h
  · exact List.nodup_nil

theorem settle_guards (u : State) : Guards u (settle u) :=
  (finishDetach_guards u).trans
    (((silenceWriter_steady _).trans (beginSlotWrite_steady _)).trans (beginAccess_steady _)).guards

/-! ## Accesses that end -/

/-- The end of an access makes nothing due. -/
theorem endAccess_steady (s : State) : Steady s (endAccess s) := by
  refine (Steady.refl s).setWalker ?_
  rw [reads_eq, reads_eq]
  exact List.sublist_append_right _ _

/-- A read that counts was the only one due (R117). -/
theorem reads_endAccess (hs : s.walker.Sound) (hcur : s.walker.current = some b) (hread : b.access.isRead = true)
    (hhalt : b.atHalt = false) : (endAccess s).walker.reads = [] := by
  have hall : s.walker.reads = b.access :: (endAccess s).walker.reads := by
    rw [reads_eq, reads_eq, hcur]
    simp [endAccess, hhalt, hread]
  have hone := hs.one
  rw [hall, List.length_cons] at hone
  exact List.eq_nil_of_length_eq_zero (by omega)

theorem Walker.Sound.anchor_ne {w : Walker} (h : w.Sound) (hatt : w.state.attached = true) : w.anchor ≠ .absent := by
  have ha := h.anchored
  unfold Walker.Anchored at ha
  revert ha hatt
  cases w.state <;> simp [WalkerState.attached]

theorem Walker.Sound.board_of_attached {w : Walker} (h : w.Sound) (hatt : w.state.attached = true) :
    w.board.isSome = true :=
  h.board.resolve_left (h.anchor_ne hatt)

/-- Every read but that of the header is made by an attached walker (R114). -/
theorem attached_of_mayRead {st : WalkerState} {a : Access} (hread : a.isRead = true) (hmay : st.mayRead a = true)
    (hheader : ∀ x, a ≠ .headerRead x) : st.attached = true := by
  cases a with
  | headerRead x => exact absurd rfl (hheader x)
  | linkRead => cases st <;> simp_all [WalkerState.mayRead, WalkerState.attached]
  | blockRead _ => cases st <;> simp_all [WalkerState.mayRead, WalkerState.attached]
  | listRead _ _ => cases st <;> simp_all [WalkerState.mayRead, WalkerState.attached]
  | _ => cases hread

/-- When a read of link, block or list counts, the walker may take. -/
theorem free_of_read (hs : s.walker.Sound) (hcur : s.walker.current = some b) (hread : b.access.isRead = true)
    (hhalt : b.atHalt = false) (hheader : ∀ x, b.access ≠ .headerRead x) :
    (endAccess s).walker.Free ∧ s.walker.state.attached = true := by
  have hdue : b.access ∈ s.walker.reads := by
    rw [reads_eq, hcur]
    simp [hhalt, hread]
  have hatt := attached_of_mayRead hread (hs.kinds _ hdue) hheader
  exact ⟨⟨reads_endAccess hs hcur hread hhalt, hs.anchor_ne hatt, hs.board_of_attached hatt⟩, hatt⟩

/-! ## Entries to WATCHING and HALTED -/

theorem enterWatching_sound (h : u.walker.Free) : (enterWatching u).walker.Sound := by
  have hwatching : Walker.Free { u.walker with state := .watching, lookAgain := false } := ⟨h.reads, h.anchor, h.board⟩
  have hsound := hwatching.sound WalkerState.noConfusion
  rw [enterWatching_eq]
  cases u.walker.lookAgain
  · simpa using hsound
  · exact sound_of_placed hwatching.reads rfl hsound.anchored hsound.board

theorem reads_halted (r : HaltReason) (s : State) : (haltWalker r s).walker.reads = [] := by
  rw [reads_eq, haltWalker, raise_walker, setWalker_walker, List.append_eq_nil_iff]
  refine ⟨?_, ?_⟩
  · cases s.walker.current <;> rfl
  · rw [List.filter_filter, List.filter_eq_nil_iff]
    simp

theorem haltWalker_sound (r : HaltReason) (h : u.walker.anchor = .absent ∨ u.walker.board.isSome = true) :
    (haltWalker r u).walker.Sound where
  one := by rw [reads_halted]; exact Nat.zero_le 1
  kinds := by rw [reads_halted]; exact nofun
  anchored := trivial
  board := h

theorem haltWalker_guards (r : HaltReason) (s : State) : Guards s (haltWalker r s) :=
  ⟨fun h => haltWalker_sound r h.board, id⟩

/-! ## Reads (R115 to R120) -/

theorem linkRead_sound (link : Addr) (h : u.walker.Free) : (linkRead link u).walker.Sound := by
  unfold linkRead
  split_ifs
  · exact enterWatching_sound h
  · exact haltWalker_sound _ (.inr h.board)
  · exact sound_of_placed (w := { u.walker with state := .fetching }) h.reads rfl h.anchor (.inr h.board)

theorem reads_withHeaderWrite (w : Walker) : Walker.reads { w with accesses := withHeaderWrite w.accesses } = w.reads := by
  unfold withHeaderWrite
  split
  · rfl
  · rw [reads_append]
    exact List.append_nil _

theorem headerRead_sound (a : Addr) (data : Table Byte 64) (h : u.walker.reads = [])
    (hboard : u.walker.anchor = .absent ∨ u.walker.board.isSome = true) : (headerRead a data u).walker.Sound := by
  unfold headerRead
  split
  · rw [attachGood_eq]
    have hanchor : (u.walker.attachedAt a data).anchor ≠ .absent := by
      change (if u.walker.anchor = .absent then Anchor.header else u.walker.anchor) ≠ .absent
      split
      · exact nofun
      · assumption
    have hreads : Walker.reads { u.walker.attachedAt a data with accesses := withHeaderWrite u.walker.accesses } = [] :=
      (reads_congr (w := { u.walker with accesses := withHeaderWrite u.walker.accesses }) rfl rfl).trans
        ((reads_withHeaderWrite _).trans h)
    exact sound_of_placed
      (w := { u.walker.attachedAt a data with accesses := withHeaderWrite u.walker.accesses }) hreads rfl hanchor (.inr rfl)
  · exact haltWalker_sound _ hboard

theorem blockRead_sound (a : Addr) (data : Table Byte 64) (h : u.walker.Free) : (blockRead a data u).walker.Sound := by
  have hcopy (c : Option FetchedCopy) : (u.setWalker { u.walker with copy := c }).walker.Free :=
    ⟨h.reads, h.anchor, h.board⟩
  unfold blockRead
  split
  · exact enterWatching_sound (hcopy none)
  · exact (TakesUp.takeCopy _ _).sound (hcopy _)
  · exact haltWalker_sound _ (.inr h.board)

theorem listRead_sound (data : List Byte) (h : u.walker.Free) (hatt : u.walker.state.attached = true) :
    (listRead data u).walker.Sound := by
  unfold listRead
  split
  · exact (TakesUp.takeProfileList _ data u).sound h
  · exact h.sound fun hd => by rw [hd] at hatt; cases hatt

/-! ## The take made again (R122) -/

/-- A stalled walker has no read due (R122). -/
theorem free_of_stalled (hs : s.walker.Sound) (hst : s.walker.state = .stalled) : s.walker.Free := by
  have hatt : s.walker.state.attached = true := by rw [hst]; rfl
  refine ⟨List.eq_nil_iff_forall_not_mem.2 fun a ha => ?_, hs.anchor_ne hatt, hs.board_of_attached hatt⟩
  have hmay := hs.kinds a ha
  have hread : a.isRead = true := (List.mem_filter.1 ha).2
  rw [hst] at hmay
  cases a with
  | blockWrite _ => cases hread
  | headerWrite => cases hread
  | _ => cases hmay

theorem retake_guards (s : State) : Guards s (retake s) := by
  unfold retake
  split
  next hst _ =>
    have htake := TakesUp.takeCopy ‹FetchedCopy› s
    exact ⟨fun h => htake.sound (free_of_stalled h hst), htake.once⟩
  next => exact (Steady.refl s).guards

theorem retakeIf_guards (ended : Bool) (s : State) : Guards s (retakeIf ended s) := by
  unfold retakeIf
  split
  · exact retake_guards s
  · exact (Steady.refl s).guards

end Sys2Proof.Machine
end


section
/-! The events of reader, governor, monitor and clock post what they change and leave the walker alone (R5, R178). -/

set_option Elab.async false

namespace Sys2Proof.Machine

variable {p : PortNo} {s t u : State}

/-- From `s` to `t` every port that shows a change is posted, no slot twice, and the walker reads no more than it did. -/
structure Tends (s t : State) : Prop where
  ports : PortsPosted s t
  steady : Steady s t

namespace Tends

theorem refl (s : State) : Tends s s := ⟨.refl s, .refl s⟩

theorem trans (h : Tends s t) (g : Tends t u) : Tends s u := ⟨h.ports.trans g.ports, h.steady.trans g.steady⟩

/-- Nothing changes that is posted or read. -/
theorem of_kept (hports : PortsKept s t) (hwalker : t.walker = s.walker) (hwriter : t.writer = s.writer) : Tends s t :=
  ⟨.of_kept hports hwriter, .of_same hwalker (by rw [hwriter])⟩

theorem setGovernor (h : Tends s t) (g : Governor) : Tends s (t.setGovernor g) := h.trans (of_kept rfl rfl rfl)

theorem setMonitor (h : Tends s t) (m : Monitor) : Tends s (t.setMonitor m) := h.trans (of_kept rfl rfl rfl)

theorem setReader (h : Tends s t) (r : Reader) : Tends s (t.setReader r) := h.trans (of_kept rfl rfl rfl)

theorem setLine (h : Tends s t) (n : LineNo) (l : Line) : Tends s (t.setLine n l) := h.trans (of_kept rfl rfl rfl)

theorem setRegs (h : Tends s t) (r : Registers) : Tends s (t.setRegs r) := h.trans (of_kept rfl rfl rfl)

theorem raise (h : Tends s t) (c : Cause) : Tends s (t.raise c) := h.trans (of_kept rfl rfl rfl)

theorem emit (h : Tends s t) (a : List WireAct) : Tends s (t.emit a) := h.trans (of_kept rfl rfl rfl)

theorem post (h : Tends s t) (x : Slot) : Tends s (t.post x) := by
  refine h.trans ⟨⟨fun p => .inl (by rw [port_post]), fun y hy => ?_, ?_⟩, (Steady.refl t).post x⟩
  · unfold State.post
    split
    · exact hy
    · exact List.mem_append_left _ hy
  · unfold State.post
    split <;> rfl

/-- The record of a port changes in fields that no slot carries. -/
theorem modPort (h : Tends s t) (p : PortNo) {f : Port → Port}
    (hf : ∀ x, portPublished (f x) = portPublished x := by exact fun _ => rfl) : Tends s (t.modPort p f) := by
  refine h.trans ⟨.of_published (fun q => ?_) rfl, .of_same rfl rfl⟩
  by_cases hq : q = p
  · subst hq
    rw [port_modPort_self, hf]
  · rw [port_modPort_ne _ _ hq]

/-! ## The reader -/

theorem startNextRead (h : Tends s t) : Tends s (startNextRead t) := by
  unfold Machine.startNextRead
  split
  · exact h.setReader _
  · exact (h.setReader _).emit _

theorem takeJoin (p : PortNo) (s : State) : Tends s (takeJoin p s) := by
  unfold Machine.takeJoin
  dsimp only
  split
  · exact (((refl s).modPort p).setReader _).startNextRead
  · exact ((refl s).modPort p).setReader _

theorem takeReaderWithdrawal (p : PortNo) (s : State) : Tends s (takeReaderWithdrawal p s) := by
  have hleft : Tends s ((s.modPort p fun x => { x with toReader := x.toReader.tail }).setReader
      { (s.modPort p fun x => { x with toReader := x.toReader.tail }).reader with
        queue := (s.modPort p fun x => { x with toReader := x.toReader.tail }).reader.queue.erase p }) :=
    ((refl s).modPort p).setReader _
  unfold Machine.takeReaderWithdrawal
  dsimp only
  split
  · exact hleft
  · split
    · exact (hleft.emit _).startNextRead
    · exact hleft
  · split
    · exact hleft.startNextRead
    · exact hleft

theorem deliverResult (p : PortNo) (r : IdResult) (h : Tends s t) : Tends s (deliverResult p r t) :=
  ((h.modPort p).setReader _).startNextRead

theorem endTry (r : ReadInProgress) (x : TryResult) (s : State) : Tends s (endTry r x s) := by
  have hacts : Tends s (s.emit (tryEndActs x)) := (refl s).emit _
  unfold Machine.endTry
  dsimp only
  split
  · exact deliverResult _ _ hacts
  · split
    · exact hacts.setReader _
    · exact deliverResult _ _ hacts

theorem secondTry (r : ReadInProgress) (s : State) : Tends s (secondTry r s) := ((refl s).setReader _).emit _

/-! ## The governor -/

theorem tellPort (h : Tends s t) (p : PortNo) (m : PortMsg) : Tends s (t.tellPort p m) := h.modPort p

theorem servingCheck (h : Tends s t) : Tends s (servingCheck t) := by
  have hserve (n : Nat) : ∀ t, Tends s t → Tends s (serveUpTo n t) := by
    induction n with
    | zero => exact fun _ h => h
    | succ n ih =>
      intro t h
      unfold serveUpTo
      split
      · exact h
      · split
        · exact ih _ ((h.setGovernor _).tellPort _ _)
        · exact h
  exact hserve _ t h

theorem takeMessage (p : PortNo) (s : State) : Tends s (takeMessage p s) := (refl s).modPort p

theorem takeClaim (p : PortNo) (s : State) : Tends s (takeClaim p s) := by
  unfold Machine.takeClaim
  dsimp only
  split
  · exact takeMessage p s
  · exact (((takeMessage p s).setGovernor _).post _).servingCheck

theorem takeWithdrawal (p : PortNo) (s : State) : Tends s (takeWithdrawal p s) := by
  unfold Machine.takeWithdrawal
  dsimp only
  split
  · exact ((takeMessage p s).setGovernor _).post _
  · exact takeMessage p s

theorem takeRelease (p : PortNo) (s : State) : Tends s (takeRelease p s) := by
  unfold Machine.takeRelease
  dsimp only
  split
  · exact (((takeMessage p s).setGovernor _).post _).servingCheck
  · exact takeMessage p s

theorem expireHistory (i : Nat) (s : State) : Tends s (expireHistory i s) :=
  (((refl s).setGovernor _).post _).servingCheck

theorem endHoldoff (s : State) : Tends s (endHoldoff s) := (((refl s).setGovernor _).post _).servingCheck

theorem handCuts (ps : List PortNo) (h : Tends s t) : Tends s (handCuts ps t) := by
  induction ps generalizing t with
  | nil => exact h
  | cons p ps ih =>
    unfold Machine.handCuts
    split
    · exact ih (h.tellPort p _)
    · exact ih h

theorem takeTrip (s : State) : Tends s (takeTrip s) :=
  ((handCuts allPorts ((refl s).setMonitor _)).setGovernor _).post _

/-! ## The monitor -/

theorem compareSupply (h : Tends s t) : Tends s (compareSupply t) := by
  unfold Machine.compareSupply
  dsimp only
  split
  · split
    · exact (h.setMonitor _).raise _
    · exact h
  · split
    · exact h.setMonitor _
    · exact h

theorem supplyMoves (mv : Nat) (s : State) : Tends s (supplyMoves mv s) := ((refl s).setMonitor _).compareSupply

theorem takeLevel (level : Nat) (rest : List Nat) (s : State) : Tends s (takeLevel level rest s) :=
  ((refl s).setMonitor _).compareSupply

/-! ## The clock (R37, R39) -/

/-- Every record of the ports changes in fields that no slot carries. -/
theorem posted_of_map {f : Port → Port} (hports : t.ports = s.ports.map f) (hwriter : t.writer = s.writer)
    (hf : ∀ x, portPublished (f x) = portPublished x := by exact fun _ => rfl) : PortsPosted s t := by
  refine .of_published (fun q => ?_) hwriter
  rw [State.port, hports, Table.get_map, hf]
  rfl

theorem takeBeat (s : State) : Tends s (takeBeat s) := by
  refine ⟨posted_of_map (f := fun x => { x with boundaries := x.boundaries ++ [s.cadence.beat + 1] }) rfl rfl,
    ⟨rfl, rfl, rfl, ?_, id⟩⟩
  rw [reads_congr (v := (Machine.takeBeat s).walker) (w := s.walker) rfl rfl]

theorem countAll (s : State) : Tends s (countAll s) := ⟨posted_of_map (f := Port.countDown) rfl rfl, .of_same rfl rfl⟩

theorem takeTick (s : State) : Tends s (takeTick s) := by
  have hbeat : Tends s (if s.cadence.boundaryDue then Machine.takeBeat s else s) := by
    split
    · exact takeBeat s
    · exact refl s
  exact (hbeat.trans (countAll _)).trans (of_kept rfl rfl rfl)

end Tends

end Sys2Proof.Machine
end


section
/-! Every command keeps the walker's and the Status Writer's invariants and posts the ports it changes (O59). -/

set_option Elab.async false

namespace Sys2Proof.Machine

variable {p : PortNo} {b : BusAccess} {s t u : State}

/-- A command that takes `s` to `t` keeps the invariants of walker and writer, leaves nothing waiting, and posts every
port that shows a change. -/
structure Attends (s t : State) : Prop where
  posts : ∀ p, portPublished (t.port p) ≠ portPublished (s.port p) → PostedWhileAttached (.port p) s t
  settled : s.settled = true → t.settled = true
  guards : Guards s t

namespace Attends

/-! ## Events, by their bodies -/

theorem noEvent : Reaches (noEvent s) (Attends s) := by
  intro t ht
  cases ht
  exact ⟨fun _ hne => absurd rfl hne, id, (Steady.quiet s).guards⟩

/-- An event whose body is good for walker and writer attends, if what it shows is posted as it ends. -/
theorem event {body : State → State} (hg : Guards s.quiet (body s.quiet))
    (hp : ∀ p, portPublished ((settle (body s.quiet)).port p) ≠ portPublished (s.port p) →
      PostedWhileAttached (.port p) s (settle (body s.quiet))) : Reaches (Machine.event body s) (Attends s) := by
  intro t ht
  cases ht
  exact ⟨hp, fun _ => settle_settled _, (Steady.quiet s).guards.trans (hg.trans (settle_guards _))⟩

theorem posted {body : State → State} (hg : Guards s.quiet (body s.quiet))
    (hp : PortsPosted s.quiet (body s.quiet)) : Reaches (Machine.event body s) (Attends s) :=
  event hg fun _ hne => hp.settle hne

/-- An event that changes no port. -/
theorem kept {body : State → State} (hg : Guards s.quiet (body s.quiet)) (hp : PortsKept s (body s.quiet)) :
    Reaches (Machine.event body s) (Attends s) :=
  event hg fun p hne => absurd (congrArg portPublished (port_congr ((settle_ports _).trans hp) p)) hne

theorem tends {body : State → State} (h : Tends s.quiet (body s.quiet)) : Reaches (Machine.event body s) (Attends s) :=
  posted h.steady.guards h.ports

/-- An event that leaves the walker DETACHED with nothing posted, as the resets do (R35, R36, R130). -/
theorem reset {body : State → State} (hstate : (body s.quiet).walker.state = .detached)
    (hs : (body s.quiet).walker.Sound) (hposting : (body s.quiet).writer.posting = []) :
    Reaches (Machine.event body s) (Attends s) := by
  refine event ⟨fun _ => hs, fun _ => hposting ▸ List.nodup_nil⟩ fun p _ hatt => ?_
  have hfinish : finishDetach (body s.quiet) = body s.quiet :=
    finishDetach_of_ne (by rw [hstate]; exact WalkerState.noConfusion)
  have hkept : (settle (body s.quiet)).walker.state = (body s.quiet).walker.state := by
    rw [settle, hfinish]
    exact (((silenceWriter_steady _).trans (beginSlotWrite_steady _)).trans (beginAccess_steady _)).state
  rw [hkept, hstate] at hatt
  cases hatt

theorem portStep {body : State → State} (hstep : PortStep p s.quiet (body s.quiet))
    (hsteady : Steady s.quiet (body s.quiet)) : Reaches (portEvent p body s) (Attends s) :=
  posted (body := fun s => s.atPort p body) (Steady.atPort hsteady).guards (.atPort hstep)

/-- An event at a port whose body is a run of changes of its record. -/
theorem portRun {gives : Bool} {body : State → State} (h : PortRun p gives s.quiet (body s.quiet)) :
    Reaches (portEvent p body s) (Attends s) :=
  portStep h.portStep ((Steady.refl _).run h)

/-- A command that may have nothing to do. -/
theorem ite {c : Prop} [Decidable c] {o : Host.Outcome State Fault Refusal} (h : Reaches o (Attends s)) :
    Reaches (if c then o else Machine.noEvent s) (Attends s) := by
  split
  · exact h
  · exact noEvent

end Attends

/-! ## Deadlines and beats of a port -/

theorem execKeepaliveBoundary_attends (p : PortNo) : Reaches (execKeepaliveBoundary p s) (Attends s) := by
  unfold execKeepaliveBoundary
  split
  · exact .portRun (PortRun.refl.takeBoundary _ _)
  · exact .noEvent

/-! ## The lane -/

theorem execAckWaitExpiry_attends (p : PortNo) : Reaches (execAckWaitExpiry p s) (Attends s) := by
  unfold execAckWaitExpiry
  split
  · exact .portRun (PortRun.refl.attemptFails _)
  · exact .noEvent

theorem execRetryGapExpiry_attends (p : PortNo) : Reaches (execRetryGapExpiry p s) (Attends s) := by
  unfold execRetryGapExpiry
  split
  · exact .portRun ((PortRun.refl (gives := false)).beginAttempt _)
  · exact .noEvent

theorem execSymbolAcknowledged_attends (p : PortNo) : Reaches (execSymbolAcknowledged p s) (Attends s) := by
  unfold execSymbolAcknowledged
  split
  · split
    · exact .noEvent
    · exact .portRun ((PortRun.refl (gives := false)).sendNext _)
  · exact .noEvent

theorem execPartPhraseEndOk_attends (p : PortNo) : Reaches (execPartPhraseEndOk p s) (Attends s) := by
  unfold execPartPhraseEndOk
  split
  · exact .ite (.portRun (PortRun.refl.phraseEndsOk _))
  · exact .noEvent

theorem execCameraSymbolReceived_attends (p : PortNo) (data : LaneBits) (parity : Bool) :
    Reaches (execCameraSymbolReceived p data parity s) (Attends s) := by
  unfold execCameraSymbolReceived
  split
  · exact .ite (.portRun ((PortRun.refl (gives := false)).clockIn _ _ _))
  · exact .noEvent

theorem execReceiveLimit_attends (p : PortNo) : Reaches (execReceiveLimit p s) (Attends s) := by
  unfold execReceiveLimit
  split
  · split
    · exact .noEvent
    · exact .portRun (PortRun.refl (gives := false)).discardReception
  · exact .noEvent

theorem execHello_attends (p : PortNo) : Reaches (execHello p s) (Attends s) := by
  unfold execHello
  split
  · exact .portRun (PortRun.refl.endReception fun _ => PortRun.refl.takeHello _ _)
  · exact .noEvent

theorem execParting_attends (p : PortNo) : Reaches (execParting p s) (Attends s) := by
  refine .ite (.portStep endReception_takeParting_step ?_)
  rw [endReception_eq]
  exact (((Steady.refl _).modPort p _).takeParting p).run (PortRun.refl (gives := false)).grantPoint

theorem execProfileReplacement_attends (p : PortNo) : Reaches (execProfileReplacement p s) (Attends s) := by
  unfold execProfileReplacement
  split
  · exact .portRun (PortRun.refl.mod.takeReplacement _)
  · exact .noEvent

/-! ## Plugs and the reader -/

theorem execPlugDebounceExpiry_attends (p : PortNo) : Reaches (execPlugDebounceExpiry p s) (Attends s) := by
  have hstep : PortStep p s.quiet (s.quiet.modPort p fun x => { x with plugDebounce := none }) :=
    (PortStep.refl p _).modPort _
  have hsteady : Steady s.quiet (s.quiet.modPort p fun x => { x with plugDebounce := none }) :=
    (Steady.refl _).modPort p _
  have hbody : PortStep p s.quiet (plugDebounced p s.quiet) ∧ Steady s.quiet (plugDebounced p s.quiet) := by
    unfold plugDebounced
    dsimp only
    split
    · exact ⟨hstep.insertPlug, hsteady.run (PortRun.refl (gives := false)).insertPlug⟩
    · split
      · exact ⟨hstep.removePlug, hsteady.removePlug p⟩
      · exact ⟨hstep, hsteady⟩
  exact .ite (.portStep hbody.1 hbody.2)

theorem execIdentityResult_attends (p : PortNo) : Reaches (execIdentityResult p s) (Attends s) := by
  unfold execIdentityResult
  split
  · exact .portRun (PortRun.refl.mod.takeIdResult _)
  · exact .noEvent

theorem execTryEnd_attends (x : TryResult) : Reaches (execTryEnd x s) (Attends s) := by
  unfold execTryEnd
  split
  · exact .tends (.endTry _ x _)
  · exact .noEvent

theorem execPlugReadRetryExpiry_attends : Reaches (execPlugReadRetryExpiry s) (Attends s) := by
  unfold execPlugReadRetryExpiry
  split
  · exact .tends (.secondTry _ _)
  · exact .noEvent

theorem execTripLevelChange_attends : Reaches (execTripLevelChange s) (Attends s) := by
  unfold execTripLevelChange
  split
  · exact .tends (.takeLevel _ _ _)
  · exact .noEvent

/-! ## Looks (R118, R43) -/

theorem mem_reads (w : Walker) (a : Access) :
    a ∈ w.reads ↔ a.isRead = true ∧ ((∃ b, w.current = some b ∧ b.atHalt = false ∧ b.access = a) ∨ a ∈ w.accesses) := by
  rw [reads_eq, ← List.filter_append, List.mem_filter, List.mem_append, and_comm]
  refine and_congr_right' (or_congr_left ?_)
  cases w.current with
  | none => simp
  | some b =>
    rw [Option.elim_some]
    split <;> simp [*, Eq.comm (a := a)]

theorem hasLinkRead_iff (w : Walker) : w.hasLinkRead = true ↔ .linkRead ∈ w.reads := by
  have hread : Access.linkRead.isRead = true := rfl
  rw [mem_reads, Walker.hasLinkRead]
  cases w.current with
  | none => simp [hread]
  | some b =>
    simp [hread, or_comm, and_comm]

theorem hasHeaderRead_iff (w : Walker) : w.hasHeaderRead = true ↔ ∃ x, .headerRead x ∈ w.reads := by
  have hread (x : Addr) : (Access.headerRead x).isRead = true := rfl
  simp only [mem_reads, hread, true_and]
  unfold Walker.hasHeaderRead
  rw [Bool.or_eq_true, List.any_eq_true]
  constructor
  · rintro (⟨a, ha, hheader⟩ | hcurrent)
    · split at hheader
      next x => exact ⟨x, .inr ha⟩
      next => cases hheader
    · split at hcurrent
      next b hb =>
        obtain ⟨hheader, hhalt⟩ := Bool.and_eq_true_iff.1 hcurrent
        dsimp only at hheader
        split at hheader
        next x hx => exact ⟨x, .inl ⟨b, hb, by simpa using hhalt, hx⟩⟩
        next => cases hheader
      next => cases hcurrent
  · rintro ⟨x, ⟨b, hb, hhalt, hx⟩ | hmem⟩
    · exact .inr (by simp [hb, hx, hhalt])
    · exact .inl ⟨_, hmem, rfl⟩

/-- A watching walker with no link read due has no read due. -/
theorem reads_of_watching (hs : s.walker.Sound) (hst : s.walker.state = .watching)
    (hlink : s.walker.hasLinkRead = false) : s.walker.reads = [] := by
  refine List.eq_nil_iff_forall_not_mem.2 fun a ha => ?_
  have hmay := hs.kinds a ha
  have hread := ((mem_reads _ _).1 ha).1
  rw [hst] at hmay
  cases a with
  | linkRead => rw [(hasLinkRead_iff _).2 ha] at hlink; cases hlink
  | blockWrite _ => cases hread
  | headerWrite => cases hread
  | _ => cases hmay

theorem place_linkRead_guards (hst : s.walker.state = .watching) (hlink : s.walker.hasLinkRead = false) :
    Guards s (s.place .linkRead) :=
  ⟨fun h => sound_of_placed (reads_of_watching h hst hlink) (by rw [hst]; rfl) h.anchored h.board, id⟩

theorem nudgeWalker_guards (s : State) : Guards s (nudgeWalker s) := by
  have hlook : Guards s (s.setWalker { s.walker with lookAgain := true }) :=
    ((Steady.refl s).setWalkerKept (w := { s.walker with lookAgain := true }) rfl rfl).guards
  unfold nudgeWalker
  split
  next hst =>
    split
    · exact hlook
    next hlink => exact place_linkRead_guards hst (Bool.eq_false_of_not_eq_true hlink)
  next => exact hlook
  next => exact hlook
  next => exact (Steady.refl s).guards

theorem nudgeWalker_ports (s : State) : PortsKept s (nudgeWalker s) := by
  unfold nudgeWalker
  split
  · split <;> rfl
  · rfl
  · rfl
  · rfl

theorem execPolling_attends : Reaches (execPolling s) (Attends s) := by
  have hpolled (u : State) : Guards u (pollWalker u) ∧ PortsKept u (pollWalker u) := by
    unfold pollWalker
    split
    next h => exact ⟨place_linkRead_guards h.1 h.2.2, rfl⟩
    next => exact ⟨(Steady.refl u).guards, rfl⟩
  have hcounted : Steady s.quiet (s.quiet.setWalker { s.walker with boundaries := s.walker.boundaries - 1 }) :=
    (Steady.refl _).setWalkerKept rfl rfl
  exact .ite (.kept (hcounted.guards.trans (hpolled _).1) (hpolled _).2)

/-! ## CONTROL (R115, R124, R183) -/

/-- A walker that is not attached has no read due but that of a header (R115, R126). -/
theorem reads_of_unattached (hs : s.walker.Sound) (hatt : s.walker.state.attached = false)
    (hheader : s.walker.hasHeaderRead = false) : s.walker.reads = [] := by
  refine List.eq_nil_iff_forall_not_mem.2 fun a ha => ?_
  by_cases hx : ∃ x, a = .headerRead x
  · obtain ⟨x, rfl⟩ := hx
    rw [(hasHeaderRead_iff _).2 ⟨x, ha⟩] at hheader
    cases hheader
  · rw [attached_of_mayRead ((mem_reads _ _).1 ha).1 (hs.kinds a ha) fun x hax => hx ⟨x, hax⟩] at hatt
    cases hatt

theorem attachWalker_guards (s : State) : Guards s (attachWalker s) := by
  have hgo (hatt : s.walker.state.attached = false)
      (hmay : s.walker.state.mayRead (.headerRead s.regs.boardBase) = true) : Guards s
      (if s.walker.hasHeaderRead then s
        else if boardBaseBad s.regs.boardBase then haltWalker .badHeader s
        else s.setWalker { s.walker with accesses := .headerRead s.regs.boardBase :: s.walker.accesses }) := by
    split_ifs with hheader
    · exact (Steady.refl s).guards
    · exact haltWalker_guards _ s
    · refine ⟨fun h => ?_, id⟩
      have hnone := reads_of_unattached h hatt (Bool.eq_false_of_not_eq_true hheader)
      have hone : Walker.reads { s.walker with accesses := .headerRead s.regs.boardBase :: s.walker.accesses } =
          [.headerRead s.regs.boardBase] := by
        have hparts := hnone
        rw [reads_eq, List.append_eq_nil_iff] at hparts
        rw [reads_eq, hparts.1, List.filter_cons_of_pos rfl, hparts.2]
        rfl
      exact
        { one := (congrArg List.length hone).le
          kinds := fun a ha => by
            rw [setWalker_walker, hone, List.mem_singleton] at ha
            exact ha ▸ hmay
          anchored := h.anchored
          board := h.board }
  unfold attachWalker
  dsimp only
  split
  next hst => exact hgo (by rw [hst]; rfl) (by rw [hst]; rfl)
  next hst => exact hgo (by rw [hst]; rfl) (by rw [hst]; rfl)
  next => exact (Steady.refl s).guards

/-- A walker that detaches may make the reads that it had to make before (R124). -/
theorem mayRead_detaching {st : WalkerState} {a : Access} (hmay : st.mayRead a = true) (hatt : st.attached = true) :
    WalkerState.detaching.mayRead a = true := by
  cases a with
  | headerRead _ => revert hmay hatt; cases st <;> simp [WalkerState.mayRead, WalkerState.attached]
  | _ => rfl

theorem detachWalker_guards (s : State) : Guards s (detachWalker s) := by
  have hdetach {w : Walker} (hatt : s.walker.state.attached = true) (hst : w.state = .detaching)
      (hanchor : w.anchor = s.walker.anchor) (hboard : w.board = s.walker.board)
      (hreads : w.reads = s.walker.reads) : Guards s (s.setWalker w) := by
    refine ⟨fun h => ⟨hreads ▸ h.one, fun a ha => ?_, ?_, ?_⟩, id⟩
    · rw [setWalker_walker, hst]
      exact mayRead_detaching (h.kinds a (hreads ▸ ha)) hatt
    · change w.Anchored
      unfold Walker.Anchored
      rw [hst, hanchor]
      exact h.anchor_ne hatt
    · rw [setWalker_walker, hanchor, hboard]
      exact h.board
  unfold detachWalker
  dsimp only
  split
  next hst => exact hdetach (by rw [hst]; rfl) rfl rfl rfl (reads_congr rfl rfl)
  next hst => exact hdetach (by rw [hst]; rfl) rfl rfl rfl (reads_congr rfl rfl)
  next hst => exact hdetach (by rw [hst]; rfl) rfl rfl rfl (reads_congr rfl rfl)
  next => exact (Steady.refl s).guards

end Sys2Proof.Machine
end


section
/-! The resets, the register window, the bus and the sweeps keep the invariants of walker and writer, and with them
every command does (O59). -/

set_option Elab.async false

namespace Sys2Proof.Machine

variable {b : BusAccess} {s t u : State}

/-! ## Resets (R35, R36, R130) -/

/-- A detached walker with no anchor and nothing due is sound. -/
theorem sound_of_detached {w : Walker} (hstate : w.state = .detached) (hanchor : w.anchor = .absent)
    (hreads : w.reads = []) : w.Sound where
  one := by rw [hreads]; exact Nat.zero_le 1
  kinds := by rw [hreads]; exact nofun
  anchored := by unfold Walker.Anchored; rw [hstate]; exact hanchor
  board := .inl hanchor

theorem resetPart_board (regs : Registers) (s : State) :
    (resetPart regs s).walker = State.reset.walker ∧ (resetPart regs s).writer = State.reset.writer := by
  unfold resetPart compareSupply
  dsimp only
  split <;> split <;> exact ⟨rfl, rfl⟩

theorem resetPart_attends {body : State → State} {regs : Registers} {v : State}
    (hbody : body s.quiet = resetPart regs v) : Reaches (event body s) (Attends s) := by
  obtain ⟨hwalker, hwriter⟩ := resetPart_board regs v
  rw [← hbody] at hwalker hwriter
  refine .reset (by rw [hwalker]; rfl) ?_ (by rw [hwriter]; rfl)
  rw [hwalker]
  exact sound_of_detached rfl rfl rfl

theorem linkReset_attends : Reaches (event linkReset s) (Attends s) :=
  .reset rfl (sound_of_detached rfl rfl rfl) rfl

/-! ## The register window (R182 to R186) -/

theorem attachWalker_ports (s : State) : PortsKept s (attachWalker s) := by
  unfold attachWalker
  dsimp only
  split
  · split_ifs <;> rfl
  · split_ifs <;> rfl
  · rfl

theorem detachWalker_ports (s : State) : PortsKept s (detachWalker s) := by
  unfold detachWalker
  dsimp only
  split <;> rfl

theorem control_attends (w : Word) : Reaches (event (writeControl w) s) (Attends s) := by
  cases hrig : w.getLsbD 3
  · have hbody : writeControl w s.quiet = controlFields w s.quiet := if_neg (by rw [hrig]; exact Bool.false_ne_true)
    have hfields : Guards s.quiet (controlFields w s.quiet) ∧ PortsKept s (controlFields w s.quiet) := by
      have hregs (r : Registers) : Steady s.quiet (s.quiet.setRegs r) := .of_same rfl rfl
      unfold controlFields
      dsimp only
      split
      · exact ⟨(hregs _).guards.trans (attachWalker_guards _), attachWalker_ports _⟩
      · exact ⟨(hregs _).guards.trans (detachWalker_guards _), detachWalker_ports _⟩
      · exact ⟨(hregs _).guards, rfl⟩
    exact .kept (hbody ▸ hfields.1) (hbody ▸ hfields.2)
  · exact resetPart_attends (if_pos hrig)

theorem nudge_attends : Reaches (event nudgeWalker s) (Attends s) :=
  .kept (nudgeWalker_guards _) (nudgeWalker_ports _)

theorem writeBoardLo_tends (w : Word) (s : State) : Tends s (writeBoardLo w s) := by
  unfold writeBoardLo
  split
  · exact (Tends.refl s).setRegs _
  · exact .refl s

theorem writeBoardHi_tends (w : Word) (s : State) : Tends s (writeBoardHi w s) := by
  unfold writeBoardHi
  split
  · exact (Tends.refl s).setRegs _
  · exact .refl s

theorem setRegs_tends (s : State) (r : Registers) : Tends s (s.setRegs r) := (Tends.refl s).setRegs r

theorem execRegisterWrite_attends (offset : BitVec 5) (z : AccessSize) (w : Word) :
    Reaches (execRegisterWrite offset z w s) (Attends s) := by
  unfold execRegisterWrite
  split
  · exact .noEvent
  · cases windowReg offset with
    | control => exact control_attends w
    | attn => exact .tends (setRegs_tends _ _)
    | attnMask => exact .tends (setRegs_tends _ _)
    | nudge => exact nudge_attends
    | boardLo => exact .tends (writeBoardLo_tends w _)
    | boardHi => exact .tends (writeBoardHi_tends w _)
    | _ => exact .tends (.refl _)

/-! ## Reads (R115 to R120) -/

/-- A read that completes: its data is used where it counts, and is discarded otherwise. -/
theorem attends_of_read {f : State → State}
    (hsound : readCounts s.quiet b = true → s.walker.Sound → (f (offBus s)).walker.Sound)
    (honce : s.writer.posting.Nodup → (f (offBus s)).writer.posting.Nodup)
    (hports : PortsKept s (f (offBus s)) ∨ PortsPosted s.quiet (f (offBus s))) :
    Reaches (event (fun s => if readCounts s b then f (endAccess s) else endAccess s) s) (Attends s) := by
  cases hcounts : readCounts s.quiet b
  · have hbody : (if readCounts s.quiet b then f (endAccess s.quiet) else endAccess s.quiet) = offBus s :=
      if_neg (by rw [hcounts]; exact Bool.false_ne_true)
    exact .kept (by rw [hbody]; exact (endAccess_steady _).guards) (by rw [hbody]; rfl)
  · have hbody : (if readCounts s.quiet b then f (endAccess s.quiet) else endAccess s.quiet) = f (offBus s) :=
      if_pos hcounts
    have hguards : Guards s.quiet (f (offBus s)) := ⟨hsound hcounts, honce⟩
    rcases hports with hports | hports
    · exact .kept (by rw [hbody]; exact hguards) (by rw [hbody]; exact hports)
    · exact .posted (by rw [hbody]; exact hguards) (by rw [hbody]; exact hports)

/-- When a read of link, block or list counts, the walker is attached and may take. -/
theorem free_of_counts (hb : s.walker.current = some b) (hread : b.access.isRead = true)
    (hheader : ∀ x, b.access ≠ .headerRead x) (hcounts : readCounts s.quiet b = true) (hs : s.walker.Sound) :
    (offBus s).walker.Free ∧ s.walker.state.attached = true :=
  free_of_read (s := s.quiet) hs hb hread ((readCounts_iff _ _).1 hcounts).1 hheader

theorem execHeaderReadComplete_attends (data : Table Byte 64) : Reaches (execHeaderReadComplete data s) (Attends s) := by
  unfold execHeaderReadComplete
  split
  next b hb =>
    split
    next a ha =>
      have hread : b.access.isRead = true := by rw [ha]; rfl
      have hkept : PortsKept s (headerRead a data (offBus s)) := by
        unfold headerRead
        split
        · rw [attachGood_eq]; rfl
        · rfl
      refine attends_of_read (fun hcounts hs => ?_) (fun h => ?_) (.inl hkept)
      · exact headerRead_sound a data (reads_endAccess (s := s.quiet) hs hb hread ((readCounts_iff _ _).1 hcounts).1)
          hs.board
      · unfold headerRead
        split
        · rw [attachGood_eq]
          exact (by decide : allSlots.Nodup)
        · exact h
    next => exact .noEvent
  next => exact .noEvent

theorem linkRead_kept (link : Addr) (s : State) :
    (linkRead link s).ports = s.ports ∧ (linkRead link s).writer = s.writer := by
  unfold linkRead
  rw [enterWatching_eq]
  split_ifs <;> exact ⟨rfl, rfl⟩

theorem execLinkReadComplete_attends (link : Addr) : Reaches (execLinkReadComplete link s) (Attends s) := by
  unfold execLinkReadComplete
  split
  next b hb =>
    split
    next ha =>
      obtain ⟨hports, hwriter⟩ := linkRead_kept link (offBus s)
      refine attends_of_read (fun hcounts hs => ?_) (fun h => by rw [hwriter]; exact h) (.inl hports)
      exact linkRead_sound link (free_of_counts hb (by rw [ha]; rfl) (by rw [ha]; exact nofun) hcounts hs).1
    next => exact .noEvent
  next => exact .noEvent

theorem offBus_posted (s : State) : PortsPosted s.quiet (offBus s) := .of_kept rfl rfl

theorem blockRead_posts (a : Addr) (data : Table Byte 64) (s : State) :
    PortsPosted s (blockRead a data s) ∧ (s.writer.posting.Nodup → (blockRead a data s).writer.posting.Nodup) := by
  unfold blockRead
  split
  · rw [enterWatching_eq]
    exact ⟨.of_kept rfl rfl, id⟩
  · have htake := TakesUp.takeCopy { address := a, data := data }
      (s.setWalker { s.walker with copy := some { address := a, data := data } })
    have hheld : PortsPosted s (s.setWalker { s.walker with copy := some { address := a, data := data } }) :=
      .of_kept rfl rfl
    exact ⟨hheld.trans (.takeCopy _ _), htake.once⟩
  · exact ⟨.of_kept rfl rfl, id⟩

theorem execBlockReadComplete_attends (data : Table Byte 64) : Reaches (execBlockReadComplete data s) (Attends s) := by
  unfold execBlockReadComplete
  split
  next b hb =>
    split
    next a ha =>
      obtain ⟨hposts, honce⟩ := blockRead_posts a data (offBus s)
      refine attends_of_read (fun hcounts hs => ?_) honce (.inr ((offBus_posted s).trans hposts))
      exact blockRead_sound a data (free_of_counts hb (by rw [ha]; rfl) (by rw [ha]; exact nofun) hcounts hs).1
    next => exact .noEvent
  next => exact .noEvent

theorem listRead_posts (data : List Byte) (s : State) :
    PortsPosted s (listRead data s) ∧ (s.writer.posting.Nodup → (listRead data s).writer.posting.Nodup) := by
  unfold listRead
  split
  · refine ⟨?_, (TakesUp.takeProfileList _ data s).once⟩
    unfold takeProfileList
    dsimp only
    split
    · exact .storeProfile _ _ _
    · exact .refuse _ _ _
  · exact ⟨.refl s, id⟩

theorem execProfileListReadComplete_attends (data : List Byte) :
    Reaches (execProfileListReadComplete data s) (Attends s) := by
  unfold execProfileListReadComplete
  split
  next b hb =>
    split
    next a n ha =>
      refine .ite ?_
      obtain ⟨hposts, honce⟩ := listRead_posts data (offBus s)
      refine attends_of_read (fun hcounts hs => ?_) honce (.inr ((offBus_posted s).trans hposts))
      obtain ⟨hfree, hatt⟩ := free_of_counts hb (by rw [ha]; rfl) (by rw [ha]; exact nofun) hcounts hs
      exact listRead_sound data hfree hatt
    next => exact .noEvent
  next => exact .noEvent

/-! ## Writes (R121, R123) -/

theorem blockLanded_steady (b : BusAccess) (w : BlockWrite) (s : State) : Steady s (blockLanded b w s) := by
  have hlanded : Steady s (landParts b.parts (offBus s)) := ((Steady.quiet s).trans (endAccess_steady _)).emit _
  unfold blockLanded releaseCopy
  split
  · exact hlanded.setWalkerKept rfl rfl
  · exact hlanded

theorem countFinished_steady (w : BlockWrite) (s : State) : Steady s (countFinished w s) := by
  have hplaced : Steady s (s.setWalker { s.walker with finishedCount := s.walker.finishedCount + 1 }).placeHeaderWrite :=
    (Steady.setWalkerKept (w := { s.walker with finishedCount := s.walker.finishedCount + 1 }) (.refl s) rfl
      rfl).placeHeaderWrite
  unfold countFinished
  split
  · exact hplaced.raise _
  · exact hplaced

theorem countFinished_posted (w : BlockWrite) (s : State) : PortsPosted s (countFinished w s) := by
  rw [countFinished_eq]
  exact .of_kept rfl rfl

theorem finalWritten_attends (w : BlockWrite) (s : State) :
    Guards s (finalWritten w s) ∧ PortsPosted s (finalWritten w s) := by
  rw [finalWritten_eq]
  have hcounted := countFinished_steady w s
  have hposted := countFinished_posted w s
  cases he : w.entry with
  | none => exact ⟨hcounted.guards, hposted⟩
  | some e =>
    have hfreed : PortsPosted s ((countFinished w s).setEntry e none) := hposted.trans (.of_kept rfl rfl)
    exact ⟨(hcounted.setEntry e none).guards.trans (retake_guards _), hfreed.trans (.retake _)⟩

theorem execBlockWriteComplete_attends : Reaches (execBlockWriteComplete s) (Attends s) := by
  unfold execBlockWriteComplete
  split
  next b _ =>
    split
    next w _ =>
      have hlanded : Steady s.quiet (blockLanded b w s) := blockLanded_steady b w s.quiet
      have hposted : PortsPosted s.quiet (blockLanded b w s) := by
        rw [blockLanded_eq]
        exact .of_kept rfl rfl
      have hbody : Guards s.quiet (blockWritten b w s.quiet) ∧ PortsPosted s.quiet (blockWritten b w s.quiet) := by
        rw [blockWritten_quiet]
        split
        · exact ⟨hlanded.guards, hposted⟩
        · obtain ⟨hguards, hposts⟩ := finalWritten_attends w (blockLanded b w s)
          exact ⟨hlanded.guards.trans hguards, hposted.trans hposts⟩
      exact .posted hbody.1 hbody.2
    next => exact .noEvent
  next => exact .noEvent

theorem execHeaderWriteComplete_attends : Reaches (execHeaderWriteComplete s) (Attends s) := by
  unfold execHeaderWriteComplete
  split
  · split
    · exact .kept ((endAccess_steady _).emit _).guards rfl
    · exact .noEvent
  · exact .noEvent

/-! ## Failures (R127) -/

theorem filter_keepWrite {a : Access} (ha : a.isRead = false) (l : List Access) :
    (keepWrite a l).filter Access.isRead = l.filter Access.isRead := by
  unfold keepWrite
  split <;> simp [List.filter_cons, ha]

/-- A failed write is due again, and a failed read is due no more (R127). -/
theorem failed_steady (b : BusAccess) (s : State) :
    Steady s (if b.access.isRead then endAccess s
      else (endAccess s).setWalker
        { (endAccess s).walker with accesses := keepWrite b.access (endAccess s).walker.accesses }) := by
  split
  · exact endAccess_steady s
  next hwrite =>
    refine (endAccess_steady s).setWalker ?_
    rw [reads_eq, reads_eq, filter_keepWrite (Bool.eq_false_of_not_eq_true hwrite)]

theorem walkerFails_guards (b : BusAccess) (s : State) : Guards s (walkerFails b s) := by
  have hfailed := failed_steady b s
  unfold walkerFails
  dsimp only
  split
  · exact hfailed.guards
  · exact hfailed.guards.trans (haltWalker_guards _ _)

theorem idleWriter_steady (s : State) : Steady s (s.setWriter { s.writer with current := none }) := .of_same rfl rfl

theorem execAccessFailure_attends (a : BusAgent) : Reaches (execAccessFailure a s) (Attends s) := by
  unfold execAccessFailure
  split
  · split
    next b _ =>
      refine .kept (walkerFails_guards b s.quiet) ?_
      unfold walkerFails
      dsimp only
      split_ifs <;> rfl
    next => exact .noEvent
  · split
    next w _ =>
      have hidle := idleWriter_steady s.quiet
      have hfails : Guards s.quiet (writerFails w s.quiet) ∧ PortsKept s (writerFails w s.quiet) := by
        unfold writerFails
        dsimp only
        split
        · exact ⟨hidle.guards, rfl⟩
        · exact ⟨hidle.guards.trans (haltWalker_guards _ _), rfl⟩
      exact .kept hfails.1 hfails.2
    next => exact .noEvent

theorem execSlotWriteComplete_attends : Reaches (execSlotWriteComplete s) (Attends s) := by
  unfold execSlotWriteComplete
  split
  · exact .kept ((idleWriter_steady _).emit _).guards rfl
  · exact .noEvent

/-! ## Sweeps and inputs (R160, R166) -/

theorem retakeIf_posted (ended : Bool) (s : State) : PortsPosted s (retakeIf ended s) := by
  unfold retakeIf
  split
  · exact .retake s
  · exact .refl s

theorem afterVisits_attends (o : Origin) (v : Bool × State) :
    Guards v.2 (afterVisits o v) ∧ PortsPosted v.2 (afterVisits o v) := by
  unfold afterVisits
  cases o with
  | request e =>
    exact ⟨((Steady.refl _).finishEntry e).guards.trans (retakeIf_guards _ _),
      (PortsPosted.finishEntry e _).trans (retakeIf_posted _ _)⟩
  | line n => exact ⟨retakeIf_guards _ _, retakeIf_posted _ _⟩

theorem stepSweep_attends (r : SweepNo) (x : Sweep) (s : State) :
    Guards s (stepSweep r x s) ∧ PortsPosted s (stepSweep r x s) := by
  have hsteady : Steady s (s.setSweep r (some x.stepped)) := (Steady.refl s).setSweep r _
  have hposted : PortsPosted s (s.setSweep r (some x.stepped)) := .setSweep s r _
  obtain ⟨hguards, hposts⟩ := afterVisits_attends x.origin (runVisits x.remaining r (s.setSweep r (some x.stepped)))
  unfold stepSweep
  dsimp only
  split
  · exact ⟨(hsteady.runVisits _ r).guards.trans hguards, (hposted.trans (.runVisits _ r _)).trans hposts⟩
  · exact ⟨hsteady.guards, hposted⟩

theorem execSweepStep_attends (r : SweepNo) : Reaches (execSweepStep r s) (Attends s) := by
  unfold execSweepStep
  split
  next x _ =>
    obtain ⟨hguards, hposts⟩ := stepSweep_attends r x s.quiet
    exact .ite (.posted hguards hposts)
  next => exact .noEvent

theorem debouncedChange_attends (n : LineNo) (s : State) :
    Guards s (debouncedChange n s) ∧ PortsPosted s (debouncedChange n s) := by
  have hseen (l : Line) : Tends s ((s.setLine n l).raise .studioInput) := ((Tends.refl s).setLine n l).raise _
  have hjudged (l : Line) (high : Bool) : Tends s (judgeEdge n high ((s.setLine n l).raise .studioInput)).2 :=
    ⟨(hseen l).ports.trans (.judgeEdge n high _), (hseen l).steady.judgeEdge n high⟩
  have hshown (l l' : Line) (high : Bool) :=
    ((hjudged l high).setLine n l').post (.line n)
  exact ⟨(hshown _ _ _).steady.guards.trans (retakeIf_guards _ _), (hshown _ _ _).ports.trans (retakeIf_posted _ _)⟩

theorem execInputDebounceExpiry_attends (n : LineNo) : Reaches (execInputDebounceExpiry n s) (Attends s) := by
  have hline (l : Line) : Tends s.quiet (s.quiet.setLine n l) := (Tends.refl _).setLine n l
  have hbody : Guards s.quiet (inputDebounced n s.quiet) ∧ PortsPosted s.quiet (inputDebounced n s.quiet) := by
    unfold inputDebounced
    dsimp only
    split
    · obtain ⟨hguards, hposts⟩ := debouncedChange_attends n (s.quiet.setLine n { s.line n with debounce := none })
      exact ⟨(hline _).steady.guards.trans hguards, (hline _).ports.trans hposts⟩
    · exact ⟨(hline _).steady.guards, (hline _).ports⟩
  exact .ite (.posted hbody.1 hbody.2)

/-! ## Every command -/

theorem exec_attends (i : Instr) (s : State) : Reaches (exec i s) (Attends s) := by
  cases i with
  | powerOnReset => exact resetPart_attends rfl
  | linkReset => exact linkReset_attends
  | attach w => exact control_attends _
  | detach w => exact control_attends _
  | poll w => exact control_attends _
  | rigReset w => exact control_attends _
  | clearPowerOn w => exact control_attends _
  | clearRig w => exact control_attends _
  | clearLink w => exact control_attends _
  | nudge z w => exact nudge_attends
  | boardLo w => exact .tends (writeBoardLo_tends w _)
  | boardHi w => exact .tends (writeBoardHi_tends w _)
  | attn w => exact .tends (setRegs_tends _ _)
  | attnMask w => exact .tends (setRegs_tends _ _)
  | registerWrite offset z w => exact execRegisterWrite_attends offset z w
  | beatBoundary => exact .ite (.tends (.takeBeat _))
  | keepaliveBoundary p => exact execKeepaliveBoundary_attends p
  | polling => exact execPolling_attends
  | sweepStep r => exact execSweepStep_attends r
  | settleExpiry p => exact .ite (.portRun (PortRun.refl (gives := false)).settleDone)
  | wakePulseEnd p => exact .ite (.portRun (PortRun.refl (gives := false)).mod)
  | bootLimitExpiry p => exact .ite (.portRun PortRun.refl.bootLimitDone)
  | holdLimitExpiry p => exact .ite (.portRun (PortRun.refl.fault _))
  | resumeLimitExpiry p => exact .ite (.portRun (PortRun.refl.fault _))
  | stopLimitExpiry p => exact .ite (.portRun PortRun.refl.stopLimitDone)
  | ackWaitExpiry p => exact execAckWaitExpiry_attends p
  | retryGapExpiry p => exact execRetryGapExpiry_attends p
  | partPhraseEndOk p => exact execPartPhraseEndOk_attends p
  | hello p => exact execHello_attends p
  | settled p => exact .ite (.portRun (PortRun.refl.endReception fun _ => PortRun.refl.takeSettled))
  | awake p => exact .ite (.portRun (PortRun.refl.endReception fun _ => PortRun.refl.takeAwake))
  | parting p => exact execParting_attends p
  | cameraPhraseDiscarded p => exact .ite (.portRun (PortRun.refl (gives := false)).discardReception)
  | receiveLimit p => exact execReceiveLimit_attends p
  | plugSenseChange p seated => exact .ite (.portRun (PortRun.refl (gives := false)).mod)
  | plugDebounceExpiry p => exact execPlugDebounceExpiry_attends p
  | readerJoin p => exact .ite (.tends (.takeJoin p _))
  | readerWithdrawal p => exact .ite (.tends (.takeReaderWithdrawal p _))
  | tryEnd r => exact execTryEnd_attends r
  | plugReadRetryExpiry => exact execPlugReadRetryExpiry_attends
  | identityResult p => exact execIdentityResult_attends p
  | claim p => exact .ite (.tends (.takeClaim p _))
  | withdrawal p => exact .ite (.tends (.takeWithdrawal p _))
  | release p => exact .ite (.tends (.takeRelease p _))
  | returnedGrant p => exact .ite (.tends (.takeRelease p _))
  | grant p => exact .ite (.portRun (PortRun.refl (gives := false)).takeGrant)
  | grantHistoryExpiry i => exact .ite (.tends (.expireHistory _ _))
  | supplyTrip mv => exact .tends (.supplyMoves mv _)
  | reArm mv => exact .tends (.supplyMoves mv _)
  | trip => exact .ite (.tends (.takeTrip _))
  | tripCut p => exact .ite (.portRun PortRun.refl.takeTripCut)
  | holdoffExpiry => exact .ite (.tends (.endHoldoff _))
  | tripLevelChange => exact execTripLevelChange_attends
  | headerReadComplete data => exact execHeaderReadComplete_attends data
  | linkReadComplete link => exact execLinkReadComplete_attends link
  | blockReadComplete data => exact execBlockReadComplete_attends data
  | profileListReadComplete data => exact execProfileListReadComplete_attends data
  | profileReplacement p => exact execProfileReplacement_attends p
  | blockWriteComplete => exact execBlockWriteComplete_attends
  | headerWriteComplete => exact execHeaderWriteComplete_attends
  | accessFailure a => exact execAccessFailure_attends a
  | slotWriteComplete => exact execSlotWriteComplete_attends
  | inputLineChange n high => exact .ite (.tends ((Tends.refl _).setLine n _))
  | inputDebounceExpiry n => exact execInputDebounceExpiry_attends n
  | tick => exact .tends (.takeTick _)
  | symbolAcknowledged p => exact execSymbolAcknowledged_attends p
  | cameraStartMark p => exact .ite (.portRun (PortRun.refl (gives := false)).beginReception)
  | cameraSymbolReceived p data parity => exact execCameraSymbolReceived_attends p data parity

theorem step_attends (h : step s = .next t) : Attends s t := by
  unfold step at h
  split at h
  · cases h
    exact ⟨fun _ hne => absurd rfl hne, id, (Steady.refl s).guards⟩
  next c rest _ =>
    obtain ⟨hposts, hsettled, hguards⟩ := exec_attends c (s.withPending rest) t h
    exact ⟨hposts, hsettled, ⟨hguards.sound, hguards.once⟩⟩

/-- The published fields of a port differ where the two parts of its slot do. -/
theorem published_ne {x y : Port} (h : portSlotHead x ≠ portSlotHead y ∨ portSlotTail x ≠ portSlotTail y) :
    portPublished x ≠ portPublished y := by
  intro heq
  obtain ⟨hhead, htail⟩ := List.append_inj heq rfl
  exact h.elim (fun hne => hne hhead) fun hne => hne htail

/-- Settles O59: each command keeps the two invariants by what it does to the reads that are due, and every event ends
with nothing left to begin; the second part needs no invariant. -/
theorem stepsKeepWalkerAndWriterSound : Obligations.StepsKeepWalkerAndWriterSound := by
  refine ⟨fun s t hs hsettled h => ?_, fun s t p h hne => (step_attends h).posts p (published_ne hne)⟩
  obtain ⟨-, hkept, hguards⟩ := step_attends h
  refine ⟨(walkerSound_iff t).2 (hguards.sound ((walkerSound_iff s).1 hs)), hkept hsettled, fun honce => ?_⟩
  exact decide_eq_true (hguards.once (of_decide_eq_true honce))

end Sys2Proof.Machine
end
